-- ==== Sys2Proof/Word.lean ====
section
/-! DEFINITION. The word types of the block and the opaque bus handle.
Rules: 00_scope.md R9 (OPW, Handle), R11 (bits and bytes). -/

namespace Sys2Proof

/-- A byte, R11: bit 0 is the least significant bit. -/
abbrev Byte := BitVec 8

/-- One operand slot of a request, OPW = 32 bits (R9, R81). -/
abbrev Slot := BitVec 32

/-- The 132-bit request word of R80. -/
abbrev ReqWord := BitVec 132

/-- The bus handle the transport returns (R9, R22): opaque to the block, which stores it and passes it back.
The number only tells handles apart (notes/assumptions/4). -/
structure Handle where
  token : Nat
  deriving DecidableEq, Repr

end Sys2Proof
end

