-- ==== Sys2Proof/Config.lean ====
section
/-! DEFINITION. The parameters of the block (00_scope.md R9) that are fixed, decided or open. -/

namespace Sys2Proof

/-- What one physical block fixes: `FB_CAPACITY`, the open parameter of R9 (decision D7), default 65536. -/
structure Config where
  fbCapacity : Nat := 65536
  deriving DecidableEq, Repr

namespace Config

/-- `CHUNK`: bytes per data block in a flush (R9). -/
abbrev chunk : Nat := 16

/-- `CMD_PREFIX`: control prefix of a command write (R9, R94). -/
abbrev cmdPrefix : Byte := 0x00#8

/-- `DATA_PREFIX`: control prefix of a data write (R9, R94). -/
abbrev dataPrefix : Byte := 0x40#8

/-- `DEFAULT_ADDR`: the default 7-bit device address (R9, R23). -/
abbrev defaultAddr : BitVec 7 := 0x3C#7

/-- `MAX_WIDTH` (R9, decision D6). -/
abbrev maxWidth : Nat := 256

/-- `MAX_PAGES` (R9, decision D6). -/
abbrev maxPages : Nat := 256

/-- `MUX_VALUE`: the multiplex-ratio argument INIT sends for every height (R9, R170). -/
abbrev muxValue : Byte := 0x3F#8

/-- `COMPINS_VALUE`: the COM-pins argument INIT sends for every height (R9, R170). -/
abbrev comPinsValue : Byte := 0x12#8

/-- `MAX_START_LINE`: the largest offset of the caller's duty on SET_START_LINE (93_implementation_defined.md U2);
the block never checks it, only claims use it. -/
abbrev maxStartLine : Nat := 63

end Config

end Sys2Proof
end

