-- ==== Sys2Proof/Syntax.lean ====
section
/-! DEFINITION. The instructions: one constructor per row of spec/opcode_table.json.
Sixteen request rows (30_encoding.md R82, R85), thirty wire command rows (R95, R97), four argument constants (R98).
Operand values are mathematical integers (00_scope.md R12) except the narrow fields of R83. -/

namespace Sys2Proof

inductive Instr where
  -- requests of the host, R82
  | construct (busId : Int) (addr : BitVec 7) (height width : Int)
  | init
  | flush
  | clear
  | clearFlush
  | setStartLine (offset : Byte)
  | writeRaw (value : Byte) (linearOffset : Int)
  | actScroll
  | deactScroll
  | scrollCfg (direction speed : Slot)
  | getPages
  | drawPixel (x y : Int) (on : Bool)
  | clearBlock (x0 y0 dx dy : Int)
  | release
  | reserved14
  | reserved15
  -- wire commands the sequencer sends, R95 (formats W1, W2, W3 of R92)
  | memoryMode (arg : Byte)
  | columnAddr (first last : Byte)
  | pageAddr (first last : Byte)
  | deactivateScroll
  | activateScroll
  | setStartLineBase (offset : BitVec 6)
  | setContrast (arg : Byte)
  | chargePump (arg : Byte)
  | segRemapBase (remap : Bool)
  | normalDisplay
  | setMultiplex (arg : Byte)
  | displayOff
  | displayOn
  | comScanDec
  | setDisplayOffset (arg : Byte)
  | setDisplayClockDiv (arg : Byte)
  | setPrecharge (arg : Byte)
  | setComPins (arg : Byte)
  | setVcomDetect (arg : Byte)
  -- wire command names never sent, R97 (format WNS)
  | setLowColumn
  | setHighColumn
  | rightHorizontalScroll
  | leftHorizontalScroll
  | verticalAndRightHorizontalScroll
  | verticalAndLeftHorizontalScroll
  | setVerticalScrollArea
  | displayAllOnResume
  | displayAllOn
  | invertDisplay
  | comScanInc
  -- argument values and flags, not command bytes, R98 (format WARG)
  | memoryModeVert
  | memoryModePage
  | externalVcc
  | switchCapVcc
  deriving DecidableEq, Repr

end Sys2Proof
end

