-- ==== Sys2Proof/WellFormed.lean ====
section
/-! DEFINITION. Which instructions have an encoding: every integer operand fits its 32-bit two's-complement slot
(30_encoding.md R81; 00_scope.md R12). The narrow operands carry their width in their type (R83). -/

namespace Sys2Proof

/-- `v` is the value `sint(s)` of some slot `s`: `-2^31 <= v <= 2^31 - 1` (R12). -/
def fitsSlot (v : Int) : Bool := decide (-2147483648 ≤ v ∧ v ≤ 2147483647)

/-- A well-formed instruction: each operand can be written into its field. -/
def Instr.wf : Instr → Bool
  | .construct busId _ height width => fitsSlot busId && fitsSlot height && fitsSlot width
  | .writeRaw _ linearOffset => fitsSlot linearOffset
  | .drawPixel x y _ => fitsSlot x && fitsSlot y
  | .clearBlock x0 y0 dx dy => fitsSlot x0 && fitsSlot y0 && fitsSlot dx && fitsSlot dy
  | .init | .flush | .clear | .clearFlush | .setStartLine _ | .actScroll | .deactScroll | .scrollCfg _ _
  | .getPages | .release | .reserved14 | .reserved15 => true
  | .memoryMode _ | .columnAddr _ _ | .pageAddr _ _ | .deactivateScroll | .activateScroll | .setStartLineBase _
  | .setContrast _ | .chargePump _ | .segRemapBase _ | .normalDisplay | .setMultiplex _ | .displayOff | .displayOn
  | .comScanDec | .setDisplayOffset _ | .setDisplayClockDiv _ | .setPrecharge _ | .setComPins _
  | .setVcomDetect _ => true
  | .setLowColumn | .setHighColumn | .rightHorizontalScroll | .leftHorizontalScroll
  | .verticalAndRightHorizontalScroll | .verticalAndLeftHorizontalScroll | .setVerticalScrollArea
  | .displayAllOnResume | .displayAllOn | .invertDisplay | .comScanInc => true
  | .memoryModeVert | .memoryModePage | .externalVcc | .switchCapVcc => true

end Sys2Proof
end

