-- ==== Sys2Proof/Decode.lean ====
section
/-! DEFINITION. The decoder and the encoder, from spec/30_encoding.md.
Three spaces of codes hold the rows of spec/opcode_table.json: request words (R80), wire command bytes (R92, R95),
and argument constants (R98). The same bits mean different things in different spaces (R99), so a code names its space. -/

namespace Sys2Proof

/-- Which argument an argument constant of R98 belongs to: the two `MEMORY_MODE_*` values are values of the argument
of `MEMORY_MODE`; the two `*_VCC` flags stand beside `CHARGE_PUMP` in the document's list (90_conflicts.md C4). -/
inductive ArgOwner where
  | memoryMode
  | chargePump
  deriving DecidableEq, Repr

/-- A code: the bits of one row of the opcode table, in its own space. -/
inductive Code where
  /-- a request word, R80 -/
  | request (w : ReqWord)
  /-- a wire command: the command byte and its argument bytes, first byte first, R92 -/
  | wire (bytes : List Byte)
  /-- an argument constant, R98 -/
  | argument (owner : ArgOwner) (value : Byte)
  deriving DecidableEq, Repr

/-- Why a code is no instruction. -/
inductive DecodeError where
  /-- an empty wire command -/
  | emptyCommand
  /-- a byte that is no command byte of R95 -/
  | unknownCommand (b : Byte)
  /-- a command byte whose argument bytes are missing, R92 -/
  | missingArgument (b : Byte)
  /-- bytes after the end of a wire command -/
  | trailingBytes
  /-- a value that is no argument constant of R98 -/
  | unknownArgument (b : Byte)
  deriving DecidableEq, Repr

/-! ## Requests (R80 to R83) -/

/-- `op = req[3:0]` (R80). -/
def ReqWord.op (w : ReqWord) : BitVec 4 := w.extractLsb' 0 4

/-- Slot `A = req[35:4]` (R80). -/
def ReqWord.slotA (w : ReqWord) : Slot := w.extractLsb' 4 32

/-- Slot `B = req[67:36]` (R80). -/
def ReqWord.slotB (w : ReqWord) : Slot := w.extractLsb' 36 32

/-- Slot `C = req[99:68]` (R80). -/
def ReqWord.slotC (w : ReqWord) : Slot := w.extractLsb' 68 32

/-- Slot `D = req[131:100]` (R80). -/
def ReqWord.slotD (w : ReqWord) : Slot := w.extractLsb' 100 32

/-- The request word with the five fields of R80, `D` in the most significant position. -/
def ReqWord.pack (op : BitVec 4) (a b c d : Slot) : ReqWord := d ++ c ++ b ++ a ++ op

/-- `sint(s)`: the signed integer a slot holds (R12, R81). -/
def sint (s : Slot) : Int := if s.toNat < 2147483648 then (s.toNat : Int) else (s.toNat : Int) - 4294967296

/-- The slot that holds the integer `v` (R81). -/
def slotOfInt (v : Int) : Slot := BitVec.ofInt 32 v

/-- Reading a request word: total, every operation code selects a row (R82, R85), operands assembled by R83,
the ignored bits dropped. -/
def decodeRequest (w : ReqWord) : Instr :=
  match w.op.toNat with
  | 0 => .construct (sint w.slotA) (w.slotB.extractLsb' 0 7) (sint w.slotC) (sint w.slotD)
  | 1 => .init
  | 2 => .flush
  | 3 => .clear
  | 4 => .clearFlush
  | 5 => .setStartLine (w.slotA.extractLsb' 0 8)
  | 6 => .writeRaw (w.slotA.extractLsb' 0 8) (sint w.slotB)
  | 7 => .actScroll
  | 8 => .deactScroll
  | 9 => .scrollCfg w.slotA w.slotB
  | 10 => .getPages
  | 11 => .drawPixel (sint w.slotA) (sint w.slotB) (decide (w.slotC ≠ 0#32))
  | 12 => .clearBlock (sint w.slotA) (sint w.slotB) (sint w.slotC) (sint w.slotD)
  | 13 => .release
  | 14 => .reserved14
  | _ => .reserved15 -- 15, the one value of four bits left

/-! ## Wire commands (R92 to R97) -/

/-- A command with no argument byte (format W1; for a name that is never sent the model's choice, notes/assumptions/21). -/
def wire1 (i : Instr) (rest : List Byte) : Except DecodeError (Instr × List Byte) := .ok (i, rest)

/-- A command with one argument byte (format W2). -/
def wire2 (opc : Byte) (f : Byte → Instr) : List Byte → Except DecodeError (Instr × List Byte)
  | a :: rest => .ok (f a, rest)
  | [] => .error (.missingArgument opc)

/-- A command with two argument bytes (format W3), window start then window end (R92, decision D19). -/
def wire3 (opc : Byte) (f : Byte → Byte → Instr) : List Byte → Except DecodeError (Instr × List Byte)
  | a :: b :: rest => .ok (f a b, rest)
  | _ => .error (.missingArgument opc)

/-- Command bytes with no bits OR-ed in: the rows of R95 and R97 with mask 255. The spec gives the eleven names of R97 no
argument count; that each is read as its one byte with no argument is the model's choice, DESIGN CHOICE,
notes/assumptions/21. -/
def decodeCommandByte (b : Byte) (rest : List Byte) : Except DecodeError (Instr × List Byte) :=
  match b.toNat with
  | 0x00 => wire1 .setLowColumn rest
  | 0x10 => wire1 .setHighColumn rest
  | 0x20 => wire2 b .memoryMode rest
  | 0x21 => wire3 b .columnAddr rest
  | 0x22 => wire3 b .pageAddr rest
  | 0x26 => wire1 .rightHorizontalScroll rest
  | 0x27 => wire1 .leftHorizontalScroll rest
  | 0x29 => wire1 .verticalAndRightHorizontalScroll rest
  | 0x2A => wire1 .verticalAndLeftHorizontalScroll rest
  | 0x2E => wire1 .deactivateScroll rest
  | 0x2F => wire1 .activateScroll rest
  | 0x81 => wire2 b .setContrast rest
  | 0x8D => wire2 b .chargePump rest
  | 0xA3 => wire1 .setVerticalScrollArea rest
  | 0xA4 => wire1 .displayAllOnResume rest
  | 0xA5 => wire1 .displayAllOn rest
  | 0xA6 => wire1 .normalDisplay rest
  | 0xA7 => wire1 .invertDisplay rest
  | 0xA8 => wire2 b .setMultiplex rest
  | 0xAE => wire1 .displayOff rest
  | 0xAF => wire1 .displayOn rest
  | 0xC0 => wire1 .comScanInc rest
  | 0xC8 => wire1 .comScanDec rest
  | 0xD3 => wire2 b .setDisplayOffset rest
  | 0xD5 => wire2 b .setDisplayClockDiv rest
  | 0xD9 => wire2 b .setPrecharge rest
  | 0xDA => wire2 b .setComPins rest
  | 0xDB => wire2 b .setVcomDetect rest
  | _ => .error (.unknownCommand b)

/-- Reading one wire command off the front of a byte stream, by position (R99): the two rows of R104 whose mask leaves
low bits free first (`SET_START_LINE_BASE`, mask 192; `SEG_REMAP_BASE`, mask 254), then the others. -/
def decodeWire : List Byte → Except DecodeError (Instr × List Byte)
  | [] => .error .emptyCommand
  | b :: rest =>
    if b.extractLsb' 6 2 = 0b01#2 then wire1 (.setStartLineBase (b.extractLsb' 0 6)) rest
    else if b.extractLsb' 1 7 = 0b1010000#7 then wire1 (.segRemapBase (b.getLsbD 0)) rest
    else decodeCommandByte b rest

/-- Reading a whole stream of wire commands; `fuel` bounds the number of commands. -/
def decodeStream : Nat → List Byte → Except DecodeError (List Instr)
  | _, [] => .ok []
  | 0, _ :: _ => .error .trailingBytes
  | fuel + 1, b :: bs =>
    match decodeWire (b :: bs) with
    | .error e => .error e
    | .ok (i, rest) =>
      match decodeStream fuel rest with
      | .error e => .error e
      | .ok is => .ok (i :: is)

/-! ## Argument constants (R98) -/

/-- Reading an argument constant: the value alone does not name it (90_conflicts.md C4), its owner does. -/
def decodeArgument : ArgOwner → Byte → Except DecodeError Instr
  | .memoryMode, b =>
    if b = 0x01#8 then .ok .memoryModeVert else if b = 0x02#8 then .ok .memoryModePage else .error (.unknownArgument b)
  | .chargePump, b =>
    if b = 0x01#8 then .ok .externalVcc else if b = 0x02#8 then .ok .switchCapVcc else .error (.unknownArgument b)

/-- The decoder: total on every code, rejecting by name. -/
def decode : Code → Except DecodeError Instr
  | .request w => .ok (decodeRequest w)
  | .wire bytes =>
    match decodeWire bytes with
    | .ok (i, []) => .ok i
    | .ok (_, _ :: _) => .error .trailingBytes
    | .error e => .error e
  | .argument owner b => decodeArgument owner b

/-! ## The encoder -/

/-- A request with the operation code `op` and the slots given; ignored bits are written 0. -/
def encodeRequest (op : BitVec 4) (a b c d : Slot) : Code := .request (ReqWord.pack op a b c d)

/-- The code of an instruction, from R80 to R83, R92, R93, R95 and R98. -/
def encode : Instr → Code
  | .construct busId addr height width =>
    encodeRequest 0#4 (slotOfInt busId) (addr.setWidth 32) (slotOfInt height) (slotOfInt width)
  | .init => encodeRequest 1#4 0#32 0#32 0#32 0#32
  | .flush => encodeRequest 2#4 0#32 0#32 0#32 0#32
  | .clear => encodeRequest 3#4 0#32 0#32 0#32 0#32
  | .clearFlush => encodeRequest 4#4 0#32 0#32 0#32 0#32
  | .setStartLine offset => encodeRequest 5#4 (offset.setWidth 32) 0#32 0#32 0#32
  | .writeRaw value linearOffset => encodeRequest 6#4 (value.setWidth 32) (slotOfInt linearOffset) 0#32 0#32
  | .actScroll => encodeRequest 7#4 0#32 0#32 0#32 0#32
  | .deactScroll => encodeRequest 8#4 0#32 0#32 0#32 0#32
  | .scrollCfg direction speed => encodeRequest 9#4 direction speed 0#32 0#32
  | .getPages => encodeRequest 10#4 0#32 0#32 0#32 0#32
  | .drawPixel x y on => encodeRequest 11#4 (slotOfInt x) (slotOfInt y) (if on then 1#32 else 0#32) 0#32
  | .clearBlock x0 y0 dx dy => encodeRequest 12#4 (slotOfInt x0) (slotOfInt y0) (slotOfInt dx) (slotOfInt dy)
  | .release => encodeRequest 13#4 0#32 0#32 0#32 0#32
  | .reserved14 => encodeRequest 14#4 0#32 0#32 0#32 0#32
  | .reserved15 => encodeRequest 15#4 0#32 0#32 0#32 0#32
  | .memoryMode arg => .wire [0x20#8, arg]
  | .columnAddr first last => .wire [0x21#8, first, last]
  | .pageAddr first last => .wire [0x22#8, first, last]
  | .deactivateScroll => .wire [0x2E#8]
  | .activateScroll => .wire [0x2F#8]
  | .setStartLineBase offset => .wire [0x40#8 ||| offset.setWidth 8]
  | .setContrast arg => .wire [0x81#8, arg]
  | .chargePump arg => .wire [0x8D#8, arg]
  | .segRemapBase remap => .wire [0xA0#8 ||| (if remap then 0x01#8 else 0x00#8)]
  | .normalDisplay => .wire [0xA6#8]
  | .setMultiplex arg => .wire [0xA8#8, arg]
  | .displayOff => .wire [0xAE#8]
  | .displayOn => .wire [0xAF#8]
  | .comScanDec => .wire [0xC8#8]
  | .setDisplayOffset arg => .wire [0xD3#8, arg]
  | .setDisplayClockDiv arg => .wire [0xD5#8, arg]
  | .setPrecharge arg => .wire [0xD9#8, arg]
  | .setComPins arg => .wire [0xDA#8, arg]
  | .setVcomDetect arg => .wire [0xDB#8, arg]
  | .setLowColumn => .wire [0x00#8]
  | .setHighColumn => .wire [0x10#8]
  | .rightHorizontalScroll => .wire [0x26#8]
  | .leftHorizontalScroll => .wire [0x27#8]
  | .verticalAndRightHorizontalScroll => .wire [0x29#8]
  | .verticalAndLeftHorizontalScroll => .wire [0x2A#8]
  | .setVerticalScrollArea => .wire [0xA3#8]
  | .displayAllOnResume => .wire [0xA4#8]
  | .displayAllOn => .wire [0xA5#8]
  | .invertDisplay => .wire [0xA7#8]
  | .comScanInc => .wire [0xC0#8]
  | .memoryModeVert => .argument .memoryMode 0x01#8
  | .memoryModePage => .argument .memoryMode 0x02#8
  | .externalVcc => .argument .chargePump 0x01#8
  | .switchCapVcc => .argument .chargePump 0x02#8

/-- The bytes of a code as a wire command sends them; a code of another space has none. -/
def Code.wireBytes : Code → List Byte
  | .wire bytes => bytes
  | .request _ => []
  | .argument _ _ => []

/-! ## The host's view of the opcode table -/

/-- A table word of `nbits` bits names a wire command where it is at most three bytes long and its value is above every
operation code. The table numbers the spaces over the same bits, and this is the model's rule to tell them apart
(notes/assumptions/8). -/
def tableWordIsWire (nbits w : Nat) : Bool := decide (nbits ≤ 24) && decide (16 ≤ w)

/-- The bytes of a table word in the wire space, first byte lowest, up to the longest wire command. -/
def tableWireBytes (w : Nat) : List Byte := [BitVec.ofNat 8 w, BitVec.ofNat 8 (w / 256), BitVec.ofNat 8 (w / 65536)]

/-- The code of a table word: its request word, or exactly the bytes of the wire command it begins with. -/
def codeOfTableWord (nbits w : Nat) : Code :=
  if tableWordIsWire nbits w then
    match decodeWire (tableWireBytes w) with
    | .ok (_, rest) => .wire ((tableWireBytes w).take (3 - rest.length))
    | .error _ => .wire (tableWireBytes w)
  else .request (BitVec.ofNat 132 w)

/-- The instruction the decoder reads from a table word. -/
def decodeTableWord (nbits w : Nat) : Option Instr :=
  match decode (codeOfTableWord nbits w) with
  | .ok i => some i
  | .error _ => none

end Sys2Proof
end

