-- ==== Sys2Proof/Machine/State.lean ====
section
/-! DEFINITION. The state of the block as plain data (spec/10_state.md), what stops a step, and the state after reset (R36). -/

namespace Sys2Proof.Machine

/-- The lifecycle state held by `LSTATE` (R21). -/
inductive LState where
  | uninitialized
  | busAcquired
  | deviceInitialized
  | displaying
  deriving DecidableEq, Repr

/-- The response status held by `STATUS` (R32, R87); the codes 4 to 7 are never produced and have no name (U9). -/
inductive Status where
  | ok
  | errResource
  | errPrecond
  | errTransport
  deriving DecidableEq, Repr

/-- A transport transaction: one call of the transport (R88). `ctrl` is the control prefix. -/
inductive Transaction where
  | openBus (busId : Int)
  | writeByte (handle : Handle) (addr : BitVec 7) (ctrl : Byte) (value : Byte)
  | writeBlock (handle : Handle) (addr : BitVec 7) (ctrl : Byte) (bytes : List Byte)
  deriving DecidableEq, Repr

/-- The answer recorded in `TRACE` beside a transaction (R33, R88): `Ok`, `Ok(h)` or `Error`. -/
inductive Reply where
  | ok
  | opened (h : Handle)
  | error
  deriving DecidableEq, Repr

/-- What the transport drives on its answer port (R8, R91: `ta_error`, `ta_handle`); the handle matters for an open only. -/
structure Answer where
  error : Bool
  handle : Handle
  deriving DecidableEq, Repr

/-- One entry of `TRACE`: a transaction and the answer it got (R33). -/
structure TraceEntry where
  tx : Transaction
  reply : Reply
  deriving DecidableEq, Repr

/-- The operation in progress with the operands it still needs. Only operations that issue transactions are ever in
progress between two steps (R238). The position of R31 has three parts, none of them an operand; that the operands (the
bus identifier, address, height and width of a CONSTRUCT, the byte of a single command) are kept here from acceptance on is
the model's choice, DESIGN CHOICE, notes/assumptions/23. -/
inductive Job where
  /-- CONSTRUCT, waiting for the answer to its OPEN (R150) -/
  | construct (busId : Int) (addr : BitVec 7) (height width : Int)
  /-- INIT (R165) -/
  | init
  /-- FLUSH (R180) -/
  | flush
  /-- the FLUSH half of CLEAR_FLUSH (R184) -/
  | clearFlush
  /-- a single-command operation, its op code and the byte it sends (R185 to R187) -/
  | command (op : BitVec 4) (b : Byte)
  /-- a wire command run by itself, outside any request (notes/assumptions/7) -/
  | wire (bytes : List Byte)
  deriving DecidableEq, Repr

/-- The sequencer position (R31): `job` gives `SEQ_OP`, `idx` is `SEQ_IDX`, `ptr` is `FB_PTR`. The operands in `job` are no
part of R31's position (notes/assumptions/23). -/
structure Position where
  job : Job
  idx : BitVec 5
  ptr : BitVec 17
  deriving DecidableEq, Repr

/-- The framebuffer cells that differ from 0x00, addresses strictly rising (R26, R50). -/
abbrev Memory := List Host.Cell

/-- The whole state: the items of R20, then the model's own fields for what lies outside the block (R37, R91). -/
structure State where
  /-- `LSTATE` (R21) -/
  lstate : LState
  /-- `HANDLE` (R22): no value while `Uninitialized` -/
  handle : Option Handle
  /-- `DEVADDR` (R23) -/
  devAddr : BitVec 7
  /-- `WIDTH` (R24) -/
  width : BitVec 9
  /-- `HEIGHT` (R24) -/
  height : BitVec 12
  /-- `PAGES`, also `bytesPerColumn` (R25) -/
  pages : BitVec 9
  /-- `FB` (R26) -/
  fb : Memory
  /-- the sequencer position (R31); `BUSY` is 1 exactly while there is one (R30) -/
  seq : Option Position
  /-- `STATUS` (R32) -/
  status : Status
  /-- `RVAL` (R32) -/
  rval : Slot
  /-- `TRACE` (R33), oldest entry first -/
  trace : List TraceEntry
  /-- the parameters of this physical block (R9, R37) -/
  cfg : Config
  /-- input: requests the host has presented and the block has not accepted, oldest first (R7, R37, R91) -/
  inbox : List ReqWord
  /-- input: answers the transport gives to the transactions to come, oldest first (R8, R37) -/
  answers : List Answer
  /-- input: the reset line (R230, R91) -/
  resetLine : Bool
  /-- the model's own: a code put at the sequencer from outside; no request and no operation fills it -/
  preload : Option Code
  deriving DecidableEq, Repr

/-- Why the machine stops with a fault. No run from reset raises either (Sys2Proof/Safety.lean `Inv`). -/
inductive Fault where
  /-- a transaction was due while `HANDLE` holds no value (R22: no rule reads it then); raised by the sequencer. Safe. -/
  | handleHasNoValue
  /-- `MemWrite` outside `FB[0 .. N-1]` (R13: it requires `0 <= i < N`); raised by DRAW_PIXEL. Safe. -/
  | framebufferRange (offset : Nat)
  deriving DecidableEq, Repr

/-- Why the model refuses to go on. -/
inductive Refusal where
  /-- an instruction whose meaning is not written yet; raised by Machine/Dispatch.lean only. Safe. -/
  | notModelled (mnemonic : String)
  /-- a wire command name the block never sends, with no argument count and no semantics in the spec (R97, U12). Safe. -/
  | neverSent (command : Byte)
  /-- an argument value or flag, no command and never sent (R98). Safe. -/
  | argumentConstant (owner : ArgOwner) (value : Byte)
  /-- a preloaded code that is no instruction; no request raises it. Safe. -/
  | undecodable (why : DecodeError)
  /-- reset of a busy block, which the spec leaves unspecified and tells a model to refuse (R231, U7). Safe. -/
  | resetWhileBusy
  deriving DecidableEq, Repr

/-- The state after reset (R36, R230). The inputs are empty: nothing has been presented yet. -/
def State.reset : State where
  lstate := .uninitialized
  handle := none
  devAddr := Config.defaultAddr
  width := 0#9
  height := 0#12
  pages := 0#9
  fb := []
  seq := none
  status := .ok
  rval := 0#32
  trace := []
  cfg := {}
  inbox := []
  answers := []
  resetLine := false
  preload := none

end Sys2Proof.Machine
end

