-- ==== Sys2Proof/Machine/Flags.lean ====
section
/-! DEFINITION. Status computations. The block has no condition codes (R32): its only status is the response, the
lifecycle state and `BUSY`; here are their codes and views. -/

namespace Sys2Proof.Machine

/-- The 2-bit encoding of `LSTATE` (R21). -/
def LState.code : LState → BitVec 2
  | .uninitialized => 0#2
  | .busAcquired => 1#2
  | .deviceInitialized => 2#2
  | .displaying => 3#2

/-- The 3-bit encoding of `STATUS` (R87). -/
def Status.code : Status → BitVec 3
  | .ok => 0#3
  | .errResource => 1#3
  | .errPrecond => 2#3
  | .errTransport => 3#3

/-- `BUSY` (R30): 1 from the acceptance of a request until its response. -/
def State.busy (s : State) : Bool := s.seq.isSome

/-- The op code of an operation in progress; a wire command run by itself has none. -/
def Job.op : Job → Option (BitVec 4)
  | .construct _ _ _ _ => some 0#4
  | .init => some 1#4
  | .flush => some 2#4
  | .clearFlush => some 4#4
  | .command op _ => some op
  | .wire _ => none

/-- `SEQ_OP` (R31): no value between operations. -/
def State.seqOp (s : State) : Option (BitVec 4) := s.seq.bind fun p => p.job.op

/-- `SEQ_IDX` (R31): no value between operations. -/
def State.seqIdx (s : State) : Option (BitVec 5) := s.seq.map fun p => p.idx

/-- `FB_PTR` (R31): no value between operations. -/
def State.fbPtr (s : State) : Option (BitVec 17) := s.seq.map fun p => p.ptr

/-- The bus is held: every lifecycle state but `Uninitialized` (R21). -/
def State.constructed (s : State) : Bool := decide (s.lstate ≠ .uninitialized)

/-- FLUSH is permitted: `DeviceInitialized` or `Displaying` (R29, R180). -/
def State.flushable (s : State) : Bool := decide (s.lstate = .deviceInitialized ∨ s.lstate = .displaying)

/-- The answer as `TRACE` records it: an open that succeeds yields the handle, a write only `Ok` (R88). -/
def Transaction.reply : Transaction → Answer → Reply
  | .openBus _, a => if a.error then .error else .opened a.handle
  | .writeByte _ _ _ _, a => if a.error then .error else .ok
  | .writeBlock _ _ _ _, a => if a.error then .error else .ok

end Sys2Proof.Machine
end

