-- ==== Sys2Proof/Machine/Operands.lean ====
section
/-! DEFINITION. Operand forms: the dimension check, the addressing law, the block-clear masks, the bytes a command sends. -/

namespace Sys2Proof.Machine

/-! ## Geometry -/

/-- `N = WIDTH * PAGES`, the framebuffer length in bytes (R10). -/
def State.size (s : State) : Nat := s.width.toNat * s.pages.toNat

/-- `DimsOk(height, width)` (R151). -/
def dimsOk (height width : Int) (cfg : Config) : Bool :=
  decide (0 < height ∧ height % 8 = 0 ∧ 0 < width ∧ width ≤ Config.maxWidth ∧ height / 8 ≤ Config.maxPages ∧
    width * (height / 8) ≤ cfg.fbCapacity)

/-! ## The addressing law (R51 to R53) -/

/-- Pixel `(x, y)` is in bounds (R51). -/
def State.inBounds (s : State) (x y : Int) : Bool :=
  decide (0 ≤ x ∧ x < s.width.toNat ∧ 0 ≤ y ∧ y < s.height.toNat)

/-- `off(x, y) = page(y) + BPC * x` for an in-bounds pixel (R52). -/
def State.pixelOffset (s : State) (x y : Nat) : Nat := y / 8 + s.pages.toNat * x

/-- `mask(y) = 1 << (y mod 8)` (R52, R53). -/
def pixelMask (y : Nat) : Byte := 1#8 <<< (y % 8)

/-! ## The rectangle of CLEAR_BLOCK (R125) -/

/-- `keep(p)` of R125: the bits of page `p` whose row is outside `[ya, yb)`. -/
def keepRows (ya yb : Int) (page : Nat) : Byte :=
  (List.range 8).foldl
    (fun acc b => if ya ≤ ((8 * page + b : Nat) : Int) ∧ ((8 * page + b : Nat) : Int) < yb then acc else acc ||| (1#8 <<< b))
    0x00#8

/-- The bits of the byte at `offset` that CLEAR_BLOCK keeps: `keep(page)` in the columns of `[xa, xb)`, all bits
elsewhere (R125); the byte's column and page are those of the inverse law of R52. -/
def State.keepMask (s : State) (x0 y0 dx dy : Int) (offset : Nat) : Byte :=
  if max x0 0 ≤ ((offset / s.pages.toNat : Nat) : Int) ∧
      ((offset / s.pages.toNat : Nat) : Int) < min (x0 + dx) s.width.toNat then
    keepRows (max y0 0) (min (y0 + dy) s.height.toNat) (offset % s.pages.toNat)
  else 0xFF#8

/-! ## Command bytes -/

/-- `INIT_ROM`: the 24 command bytes of INIT, by index (R166). -/
def initRom : List Byte :=
  [0xAE#8, 0xD5#8, 0x80#8, 0xA8#8, Config.muxValue, 0xDA#8, Config.comPinsValue, 0xD3#8, 0x00#8, 0x40#8, 0x8D#8, 0x14#8] ++
  [0x20#8, 0x00#8, 0xA1#8, 0xC8#8, 0x81#8, 0x8F#8, 0xD9#8, 0xF1#8, 0xDB#8, 0x40#8, 0xA6#8, 0xAF#8]

/-- INIT's fifteen steps as wire commands, in the order of R166 (the pairing of R96). -/
def initSteps : List Instr :=
  [.displayOff, .setDisplayClockDiv 0x80#8, .setMultiplex Config.muxValue, .setComPins Config.comPinsValue,
   .setDisplayOffset 0x00#8, .setStartLineBase 0#6, .chargePump 0x14#8, .memoryMode 0x00#8] ++
  [.segRemapBase true, .comScanDec, .setContrast 0x8F#8, .setPrecharge 0xF1#8, .setVcomDetect 0x40#8,
   .normalDisplay, .displayOn]

/-- A window end: `WIDTH - 1` or `PAGES - 1` as one byte (R93). -/
def windowEnd (extent : BitVec 9) : Byte := BitVec.ofNat 8 (extent.toNat - 1)

/-- `WINDOW_CMDS`: the six bytes of a flush's first phase (R181). -/
def State.windowCmds (s : State) : List Byte :=
  [0x21#8, 0x00#8, windowEnd s.width, 0x22#8, 0x00#8, windowEnd s.pages]

/-- The start-line command byte `0x40 | offset[7:0]` (R93, R185). -/
def startLineByte (offset : Byte) : Byte := 0x40#8 ||| offset

end Sys2Proof.Machine
end

