-- ==== Sys2Proof/Machine/Ops.lean ====
section
/-! DEFINITION. The shared operations: framebuffer access, responses, the transport call, the two transfer primitives,
and the sequencer that runs an operation's transactions. -/

namespace Sys2Proof.Machine

/-- The outcome of a step or of a meaning. -/
abbrev Result := Host.Outcome State Fault Refusal

/-! ## Framebuffer memory (R26, R50) -/

/-- What an unlisted offset reads as: CONSTRUCT zero-fills `FB[0 .. N-1]` (R26, R153). -/
def Memory.unlisted : Byte := 0x00#8

/-- The byte at an offset. -/
def Memory.read : Memory → Nat → Byte
  | [], _ => Memory.unlisted
  | (k, v) :: rest, a => if k = a then v else Memory.read rest a

/-- Put a cell in front, or nothing where its byte is the unlisted one. -/
def Memory.cons (a : Nat) (v : Byte) (m : Memory) : Memory := if v = Memory.unlisted then m else (a, v) :: m

/-- Write one byte, keeping the canonical form. -/
def Memory.write : Memory → Nat → Byte → Memory
  | [], a, v => Memory.cons a v []
  | (k, b) :: rest, a, v =>
    if a < k then Memory.cons a v ((k, b) :: rest)
    else if a = k then Memory.cons a v rest
    else (k, b) :: Memory.write rest a v

/-- AND every byte with the mask of its offset, keeping the canonical form; an unlisted byte is 0x00 and stays so. -/
def Memory.andMask (keep : Nat → Byte) : Memory → Memory
  | [] => []
  | (k, b) :: rest => Memory.cons k (b &&& keep k) (Memory.andMask keep rest)

/-- Every byte 0x00. -/
def Memory.zeroed : Memory := []

/-- Cells from offset `lo` on, offsets strictly rising, none holding the unlisted byte. -/
def Memory.wfFrom : Nat → Memory → Bool
  | _, [] => true
  | lo, (k, v) :: rest => decide (lo ≤ k) && decide (v ≠ Memory.unlisted) && Memory.wfFrom (k + 1) rest

/-- The canonical form. -/
def Memory.wf (m : Memory) : Bool := Memory.wfFrom 0 m

/-- Every listed offset is below `n`. -/
def Memory.below (n : Nat) (m : Memory) : Bool := m.all fun c => decide (c.1 < n)

/-- `FB[i]` (R13). -/
def State.fbRead (s : State) (i : Nat) : Byte := Memory.read s.fb i

/-- `MemRead(i, n)` (R13): `n` bytes, lowest offset first. The sequencer asks only for `i + n <= N`. -/
def State.memRead (s : State) (i n : Nat) : List Byte := (List.range n).map fun j => s.fbRead (i + j)

/-- The state with another framebuffer content. -/
def State.withFb (s : State) (m : Memory) : State := { s with fb := m }

/-- `MemWrite(i, 1, v)` (R13): requires `i < N`; outside the framebuffer there is nothing to write. -/
def State.memWrite (s : State) (i : Nat) (v : Byte) : Except Fault State :=
  if i < s.size then .ok (s.withFb (Memory.write s.fb i v)) else .error (.framebufferRange i)

/-- Fill every byte with 0x00 (R121, R153). -/
def State.zeroFill (s : State) : State := s.withFb Memory.zeroed

/-- The observation function `Pixel(x, y)` (R54): claims use it, the block has no such operation. The spec defines it for
in-bounds pixels; what it gives out of bounds (the bit where the addressing law would put the pixel, possibly one of another
column) is the model's choice, DESIGN CHOICE, notes/assumptions/20. -/
def State.pixel (s : State) (x y : Nat) : Bool := (s.fbRead (s.pixelOffset x y)).getLsbD (y % 8)

/-! ## Responses and errors (R86, R210) -/

/-- Complete the operation with a response: `STATUS` and `RVAL` are written, `BUSY` returns to 0, the position is
discarded (R30, R31, R32, R86). -/
def State.respond (s : State) (st : Status) (v : Slot) : State := { s with status := st, rval := v, seq := none }

/-- `return OK(v)` (R13). -/
def State.finish (s : State) (v : Slot) : State := s.respond .ok v

/-- `raise E` (R13, R210): the block's counterpart of taking an exception. The response carries the status and `RVAL = 0`
(R201); nothing else is saved. There is no return from it: the block is ready for the next request (R213). -/
def State.raiseError (s : State) (e : Status) : State := s.respond e 0#32

/-- An operation starts only when `BUSY = 0`; a busy block does not accept it and is unchanged (R30). -/
def whenIdle (s : State) (op : State → Result) : Result := if s.busy then .next s else op s

/-- The common state check: `ERR_PRECOND` in `Uninitialized` (R29, R120). -/
def whenConstructed (s : State) (op : State → Result) : Result :=
  if s.constructed then op s else .next (s.raiseError .errPrecond)

/-! ## Lifecycle registers -/

/-- Write `LSTATE` (R28). -/
def State.setLState (s : State) (l : LState) : State := { s with lstate := l }

/-- The register writes of a successful CONSTRUCT (R150): handle, address, geometry, zero-filled framebuffer, `LSTATE`. -/
def State.constructAs (s : State) (h : Handle) (addr : BitVec 7) (height width : Int) : State :=
  { s with
    handle := some h, devAddr := addr, width := BitVec.ofInt 9 width, height := BitVec.ofInt 12 height,
    pages := BitVec.ofInt 9 (height / 8), fb := Memory.zeroed, lstate := .busAcquired }

/-- The register writes of RELEASE (R154): what reset leaves, `TRACE` kept (R36). -/
def State.released (s : State) : State :=
  { s with
    lstate := .uninitialized, handle := none, devAddr := Config.defaultAddr, width := 0#9, height := 0#12, pages := 0#9,
    fb := Memory.zeroed }

/-- The effect of the reset line on an idle block (R36, R230): the reset state, with this block's parameters and with what
waits on its inputs; the line is served. -/
def State.hardReset (s : State) : State :=
  { State.reset with cfg := s.cfg, inbox := s.inbox, answers := s.answers, preload := s.preload }

/-! ## The transport call (R143) -/

/-- Append `(t, answer)` to `TRACE` and take the answer off the transport's port. -/
def State.logged (s : State) (t : Transaction) (a : Answer) (rest : List Answer) : State :=
  { s with trace := s.trace ++ [⟨t, t.reply a⟩], answers := rest }

/-- `Tx(t)` (R13, R143): none while the transport has not answered. -/
def tx (t : Transaction) (s : State) : Option (Answer × State) :=
  match s.answers with
  | [] => none
  | a :: rest => some (a, s.logged t a rest)

/-- What a run of transfers came to: all answered `Ok`, ended by an answer `Error`, or waiting for an answer. -/
inductive Sent where
  | done (s : State)
  | failed (s : State)
  | waiting (s : State)
  deriving DecidableEq, Repr

/-- `SEQ_IDX <- SEQ_IDX + 1` after a command write answered `Ok` (R31). -/
def State.advanceIdx (s : State) : State := { s with seq := s.seq.map fun p => { p with idx := p.idx + 1#5 } }

/-- `FB_PTR <- FB_PTR + n` after a data write of `n` bytes answered `Ok` (R31). -/
def State.advancePtr (s : State) (n : Nat) : State :=
  { s with seq := s.seq.map fun p => { p with ptr := p.ptr + BitVec.ofNat 17 n } }

/-- `SendCommand(b)` (R141). -/
def sendCommand (h : Handle) (b : Byte) (s : State) : Sent :=
  match tx (.writeByte h s.devAddr Config.cmdPrefix b) s with
  | none => .waiting s
  | some (a, s') => if a.error then .failed s' else .done s'.advanceIdx

/-- `SendData(bs)` (R142). -/
def sendData (h : Handle) (bs : List Byte) (s : State) : Sent :=
  match tx (.writeBlock h s.devAddr Config.dataPrefix bs) s with
  | none => .waiting s
  | some (a, s') => if a.error then .failed s' else .done (s'.advancePtr bs.length)

/-- Send command bytes in order, each only after the one before was answered `Ok` (R61). -/
def sendCommands (h : Handle) : List Byte → State → Sent
  | [], s => .done s
  | b :: bs, s =>
    match sendCommand h b s with
    | .done s' => sendCommands h bs s'
    | .failed s' => .failed s'
    | .waiting s' => .waiting s'

/-- Send data blocks in order, each only after the one before was answered `Ok` (R61). -/
def sendBlocks (h : Handle) : List (List Byte) → State → Sent
  | [], s => .done s
  | bs :: rest, s =>
    match sendData h bs s with
    | .done s' => sendBlocks h rest s'
    | .failed s' => .failed s'
    | .waiting s' => .waiting s'

/-! ## The sequencer (R31, R165, R180) -/

/-- The blocks of a flush's second phase from offset `ptr` on: 16 bytes each, the last one short (R182). -/
def State.dataBlocks (s : State) (ptr : Nat) : List (List Byte) :=
  (List.range ((s.size - ptr + 15) / Config.chunk)).map fun k =>
    s.memRead (ptr + Config.chunk * k) (min Config.chunk (s.size - (ptr + Config.chunk * k)))

/-- Run an operation's remaining transactions: first the command bytes, then the data blocks; `onOk` when every one was
answered `Ok`, `onError` at the first `Error` (R144), and as it stands while the transport is silent (R238). -/
def sendAll (cmds : List Byte) (blocks : List (List Byte)) (onOk onError : State → State) (s : State) : Result :=
  match s.handle with
  | none => .fault .handleHasNoValue
  | some h =>
    match sendCommands h cmds s with
    | .waiting s' => .next s'
    | .failed s' => .next (onError s')
    | .done s' =>
      match sendBlocks h blocks s' with
      | .waiting s'' => .next s''
      | .failed s'' => .next (onError s'')
      | .done s'' => .next (onOk s'')

/-- A write answered `Error`: `ERR_TRANSPORT`, `LSTATE` unchanged (R144, R183, R188). -/
def State.transportFailed (s : State) : State := s.raiseError .errTransport

/-- A write of INIT answered `Error`: `LSTATE` falls back to `BusAcquired` (R169). -/
def State.initFailed (s : State) : State := (s.setLState .busAcquired).raiseError .errTransport

/-- INIT complete (R165). -/
def State.initDone (s : State) : State := (s.setLState .deviceInitialized).finish 0#32

/-- FLUSH or CLEAR_FLUSH complete (R180, R184). -/
def State.flushDone (s : State) : State := (s.setLState .displaying).finish 0#32

/-- A command operation complete (R185 to R187). -/
def State.commandDone (s : State) : State := s.finish 0#32

/-- CONSTRUCT from its OPEN on (R150, R152). -/
def openBus (busId : Int) (addr : BitVec 7) (height width : Int) (s : State) : Result :=
  match tx (.openBus busId) s with
  | none => .next s
  | some (a, s') =>
    if a.error then .next (s'.raiseError .errResource)
    else .next ((s'.constructAs a.handle addr height width).finish 0#32)

/-- Go on with the operation in progress from its position, as far as the transport answers. -/
def resume (s : State) : Result :=
  match s.seq with
  | none => .next s
  | some p =>
    match p.job with
    | .construct busId addr height width => openBus busId addr height width s
    | .init => sendAll (initRom.drop p.idx.toNat) [] State.initDone State.initFailed s
    | .flush => sendAll (s.windowCmds.drop p.idx.toNat) (s.dataBlocks p.ptr.toNat) State.flushDone State.transportFailed s
    | .clearFlush =>
      sendAll (s.windowCmds.drop p.idx.toNat) (s.dataBlocks p.ptr.toNat) State.flushDone State.transportFailed s
    | .command _ b => sendAll ([b].drop p.idx.toNat) [] State.commandDone State.transportFailed s
    | .wire bytes => sendAll (bytes.drop p.idx.toNat) [] State.commandDone State.transportFailed s

/-- The operation `job` accepted: `BUSY = 1`, position at its beginning (R30, R31). `SEQ_IDX` and `FB_PTR` start at 0 in every
operation; where the spec gives them no value (`SEQ_IDX` in CONSTRUCT, `FB_PTR` outside a flush's second phase) the 0 is the
model's choice, DESIGN CHOICE, notes/assumptions/19. -/
def State.accepted (s : State) (job : Job) : State := { s with seq := some ⟨job, 0#5, 0#17⟩ }

/-- Accept an operation and run it. -/
def start (job : Job) (s : State) : Result := resume (s.accepted job)

/-- A wire command run by itself: its bytes through `SendCommand`, one transaction each (R92, R141), under the state check of
every sending operation (R140); `LSTATE` as the single-command operations leave it (R188; notes/assumptions/7). -/
def sendWire (bytes : List Byte) (s : State) : Result :=
  whenIdle s fun s => whenConstructed s (start (.wire bytes))

end Sys2Proof.Machine
end

