-- ==== Sys2Proof/Machine/Bitmap.lean ====
section
/-! DEFINITION. The framebuffer operations (spec/40_bitmap_ops.md). -/

namespace Sys2Proof.Machine

/-- CLEAR (R121). -/
def execClear (s : State) : Result :=
  whenIdle s fun s => whenConstructed s fun s => .next (s.zeroFill.finish 0#32)

/-- The byte of pixel row `y` with its bit set or cleared (R122). -/
def setPixelBit (old : Byte) (y : Nat) (on : Bool) : Byte :=
  if on then old ||| pixelMask y else old &&& (~~~ (pixelMask y) &&& 0xFF#8)

/-- The pixel write of R122: nothing at all out of bounds, else a read-modify-write of one byte. -/
def State.drawPixel (s : State) (x y : Int) (on : Bool) : Except Fault State :=
  if s.inBounds x y then
    let o := s.pixelOffset x.toNat y.toNat
    s.memWrite o (setPixelBit (s.fbRead o) y.toNat on)
  else .ok s

/-- DRAW_PIXEL (R122). -/
def execDrawPixel (x y : Int) (on : Bool) (s : State) : Result :=
  whenIdle s fun s => whenConstructed s fun s =>
    match s.drawPixel x y on with
    | .ok s' => .next (s'.finish 0#32)
    | .error f => .fault f

/-- CLEAR_BLOCK (R124), in the closed form of R125. -/
def execClearBlock (x0 y0 dx dy : Int) (s : State) : Result :=
  whenIdle s fun s => whenConstructed s fun s =>
    .next ((s.withFb (Memory.andMask (s.keepMask x0 y0 dx dy) s.fb)).finish 0#32)

/-- `n` pixels of column `x` cleared from row `y0` downwards, row by row: the inner loop of R124. -/
def State.clearColumnByPixels (s : State) (x y0 : Int) : Nat → Except Fault State
  | 0 => .ok s
  | n + 1 =>
    match s.clearColumnByPixels x y0 n with
    | .ok s' => s'.drawPixel x (y0 + n) false
    | .error f => .error f

/-- The loop of R124 for `m` columns of `n` rows, column by column; claims compare CLEAR_BLOCK with it. -/
def State.clearBlockByPixels (s : State) (x0 y0 : Int) (n : Nat) : Nat → Except Fault State
  | 0 => .ok s
  | m + 1 =>
    match s.clearBlockByPixels x0 y0 n m with
    | .ok s' => s'.clearColumnByPixels (x0 + m) y0 n
    | .error f => .error f

/-- WRITE_RAW (R126). -/
def execWriteRaw (value : Byte) (linearOffset : Int) (s : State) : Result :=
  whenIdle s fun s => whenConstructed s fun s =>
    if linearOffset < 0 ∨ (s.size : Int) ≤ linearOffset then .next (s.raiseError .errPrecond)
    else
      match s.memWrite linearOffset.toNat value with
      | .ok s' => .next (s'.finish 0#32)
      | .error f => .fault f

end Sys2Proof.Machine
end

