-- ==== Sys2Proof/Machine/Lifecycle.lean ====
section
/-! DEFINITION. Construction, release, page count, the scroll-configuration stub (spec/42_lifecycle_ops.md) and the two
reserved request codes (30_encoding.md R85). -/

namespace Sys2Proof.Machine

/-- CONSTRUCT (R150): state check (R157), then dimension check (R151), then OPEN (R152). -/
def execConstruct (busId : Int) (addr : BitVec 7) (height width : Int) (s : State) : Result :=
  whenIdle s fun s =>
    if s.constructed then .next (s.raiseError .errPrecond)
    else if dimsOk height width s.cfg then start (.construct busId addr height width) s
    else .next (s.raiseError .errPrecond)

/-- RELEASE (R154). -/
def execRelease (s : State) : Result := whenIdle s fun s => .next (s.released.finish 0#32)

/-- GET_PAGES (R155). -/
def execGetPages (s : State) : Result :=
  whenIdle s fun s => whenConstructed s fun s => .next (s.finish (s.pages.setWidth 32))

/-- SCROLL_CFG (R156): no operand read, nothing changed, nothing sent. -/
def execScrollCfg (_direction _speed : Slot) (s : State) : Result :=
  whenIdle s fun s => whenConstructed s fun s => .next (s.finish 0#32)

/-- RESERVED_14 (R85): `ERR_PRECOND` in every lifecycle state. -/
def execReserved14 (s : State) : Result := whenIdle s fun s => .next (s.raiseError .errPrecond)

/-- RESERVED_15 (R85): `ERR_PRECOND` in every lifecycle state. -/
def execReserved15 (s : State) : Result := whenIdle s fun s => .next (s.raiseError .errPrecond)

end Sys2Proof.Machine
end

