-- ==== Sys2Proof/Machine/Sending.lean ====
section
/-! DEFINITION. The operations that send: INIT (spec/43_init_sequence.md), FLUSH, CLEAR_FLUSH and the three single-command
operations (spec/44_flush_and_commands.md). -/

namespace Sys2Proof.Machine

/-- INIT (R165, R169, R171). -/
def execInit (s : State) : Result := whenIdle s fun s => whenConstructed s (start .init)

/-- FLUSH (R180 to R183). -/
def execFlush (s : State) : Result :=
  whenIdle s fun s => if s.flushable then start .flush s else .next (s.raiseError .errPrecond)

/-- CLEAR_FLUSH (R184): the clear is done before the flush half is checked and is not undone. -/
def execClearFlush (s : State) : Result :=
  whenIdle s fun s => whenConstructed s fun s =>
    if s.flushable then start .clearFlush s.zeroFill else .next (s.zeroFill.raiseError .errPrecond)

/-- SET_START_LINE (R185). -/
def execSetStartLine (offset : Byte) (s : State) : Result :=
  whenIdle s fun s => whenConstructed s (start (.command 5#4 (startLineByte offset)))

/-- ACT_SCROLL (R186). -/
def execActScroll (s : State) : Result := whenIdle s fun s => whenConstructed s (start (.command 7#4 0x2F#8))

/-- DEACT_SCROLL (R187). -/
def execDeactScroll (s : State) : Result := whenIdle s fun s => whenConstructed s (start (.command 8#4 0x2E#8))

end Sys2Proof.Machine
end

