-- ==== Sys2Proof/Machine/Wire.lean ====
section
/-! DEFINITION. The wire command rows (30_encoding.md R92 to R98). A command the block sends is its bytes through
`SendCommand`; the names it never sends and the argument constants have no effect in the spec and are refused by name. -/

namespace Sys2Proof.Machine

/-- The wire command of an instruction, as its encoding writes it (R92, R93). -/
def sendEncoded (i : Instr) (s : State) : Result := sendWire (encode i).wireBytes s

/-! ## Sent, formats W1, W2, W3 (R95) -/

/-- DEACTIVATE_SCROLL (R95). -/
def execDeactivateScroll (s : State) : Result := sendEncoded .deactivateScroll s

/-- ACTIVATE_SCROLL (R95). -/
def execActivateScroll (s : State) : Result := sendEncoded .activateScroll s

/-- NORMAL_DISPLAY (R95). -/
def execNormalDisplay (s : State) : Result := sendEncoded .normalDisplay s

/-- DISPLAY_OFF (R95). -/
def execDisplayOff (s : State) : Result := sendEncoded .displayOff s

/-- DISPLAY_ON (R95). -/
def execDisplayOn (s : State) : Result := sendEncoded .displayOn s

/-- COM_SCAN_DEC (R95). -/
def execComScanDec (s : State) : Result := sendEncoded .comScanDec s

/-- SET_START_LINE_BASE (R93, R95): the offset OR-ed in. -/
def execSetStartLineBase (offset : BitVec 6) (s : State) : Result := sendEncoded (.setStartLineBase offset) s

/-- SEG_REMAP_BASE (R93, R95): the re-map flag OR-ed in. -/
def execSegRemapBase (remap : Bool) (s : State) : Result := sendEncoded (.segRemapBase remap) s

/-- MEMORY_MODE (R95): command byte, then argument byte. -/
def execMemoryMode (arg : Byte) (s : State) : Result := sendEncoded (.memoryMode arg) s

/-- SET_CONTRAST (R95): command byte, then argument byte. -/
def execSetContrast (arg : Byte) (s : State) : Result := sendEncoded (.setContrast arg) s

/-- CHARGE_PUMP (R95): command byte, then argument byte. -/
def execChargePump (arg : Byte) (s : State) : Result := sendEncoded (.chargePump arg) s

/-- SET_MULTIPLEX (R95): command byte, then argument byte. -/
def execSetMultiplex (arg : Byte) (s : State) : Result := sendEncoded (.setMultiplex arg) s

/-- SET_DISPLAY_OFFSET (R95): command byte, then argument byte. -/
def execSetDisplayOffset (arg : Byte) (s : State) : Result := sendEncoded (.setDisplayOffset arg) s

/-- SET_DISPLAY_CLOCK_DIV (R95): command byte, then argument byte. -/
def execSetDisplayClockDiv (arg : Byte) (s : State) : Result := sendEncoded (.setDisplayClockDiv arg) s

/-- SET_PRECHARGE (R95): command byte, then argument byte. -/
def execSetPrecharge (arg : Byte) (s : State) : Result := sendEncoded (.setPrecharge arg) s

/-- SET_COM_PINS (R95): command byte, then argument byte. -/
def execSetComPins (arg : Byte) (s : State) : Result := sendEncoded (.setComPins arg) s

/-- SET_VCOM_DETECT (R95): command byte, then argument byte. -/
def execSetVcomDetect (arg : Byte) (s : State) : Result := sendEncoded (.setVcomDetect arg) s

/-- COLUMN_ADDR (R92, R181): command byte, window start, window end. -/
def execColumnAddr (first last : Byte) (s : State) : Result := sendEncoded (.columnAddr first last) s

/-- PAGE_ADDR (R92, R181): command byte, window start, window end. -/
def execPageAddr (first last : Byte) (s : State) : Result := sendEncoded (.pageAddr first last) s

/-! ## Never sent (R97, U12): no argument count, no semantics -/

/-- SET_LOW_COLUMN (R97). -/
def execSetLowColumn (_s : State) : Result := .refused (.neverSent 0x00#8)

/-- SET_HIGH_COLUMN (R97). -/
def execSetHighColumn (_s : State) : Result := .refused (.neverSent 0x10#8)

/-- RIGHT_HORIZONTAL_SCROLL (R97). -/
def execRightHorizontalScroll (_s : State) : Result := .refused (.neverSent 0x26#8)

/-- LEFT_HORIZONTAL_SCROLL (R97). -/
def execLeftHorizontalScroll (_s : State) : Result := .refused (.neverSent 0x27#8)

/-- VERTICAL_AND_RIGHT_HORIZONTAL_SCROLL (R97). -/
def execVerticalAndRightHorizontalScroll (_s : State) : Result := .refused (.neverSent 0x29#8)

/-- VERTICAL_AND_LEFT_HORIZONTAL_SCROLL (R97). -/
def execVerticalAndLeftHorizontalScroll (_s : State) : Result := .refused (.neverSent 0x2A#8)

/-- SET_VERTICAL_SCROLL_AREA (R97). -/
def execSetVerticalScrollArea (_s : State) : Result := .refused (.neverSent 0xA3#8)

/-- DISPLAY_ALL_ON_RESUME (R97). -/
def execDisplayAllOnResume (_s : State) : Result := .refused (.neverSent 0xA4#8)

/-- DISPLAY_ALL_ON (R97). -/
def execDisplayAllOn (_s : State) : Result := .refused (.neverSent 0xA5#8)

/-- INVERT_DISPLAY (R97). -/
def execInvertDisplay (_s : State) : Result := .refused (.neverSent 0xA7#8)

/-- COM_SCAN_INC (R97). -/
def execComScanInc (_s : State) : Result := .refused (.neverSent 0xC0#8)

/-! ## Argument constants, not command bytes (R98) -/

/-- MEMORY_MODE_VERT (R98). -/
def execMemoryModeVert (_s : State) : Result := .refused (.argumentConstant .memoryMode 0x01#8)

/-- MEMORY_MODE_PAGE (R98). -/
def execMemoryModePage (_s : State) : Result := .refused (.argumentConstant .memoryMode 0x02#8)

/-- EXTERNAL_VCC (R98). -/
def execExternalVcc (_s : State) : Result := .refused (.argumentConstant .chargePump 0x01#8)

/-- SWITCH_CAP_VCC (R98). -/
def execSwitchCapVcc (_s : State) : Result := .refused (.argumentConstant .chargePump 0x02#8)

end Sys2Proof.Machine
end

