-- ==== Sys2Proof/Machine/Dispatch.lean ====
section
/-! DEFINITION. One arm per instruction, in the order of spec/opcode_table.json. -/

namespace Sys2Proof.Machine

def exec (i : Instr) (s : State) : Host.Outcome State Fault Refusal :=
  match i with
  | .construct busId addr height width => Sys2Proof.Machine.execConstruct busId addr height width s
  | .init => Sys2Proof.Machine.execInit s
  | .flush => Sys2Proof.Machine.execFlush s
  | .clear => Sys2Proof.Machine.execClear s
  | .clearFlush => Sys2Proof.Machine.execClearFlush s
  | .setStartLine offset => Sys2Proof.Machine.execSetStartLine offset s
  | .writeRaw value linearOffset => Sys2Proof.Machine.execWriteRaw value linearOffset s
  | .actScroll => Sys2Proof.Machine.execActScroll s
  | .deactScroll => Sys2Proof.Machine.execDeactScroll s
  | .scrollCfg direction speed => Sys2Proof.Machine.execScrollCfg direction speed s
  | .getPages => Sys2Proof.Machine.execGetPages s
  | .drawPixel x y on => Sys2Proof.Machine.execDrawPixel x y on s
  | .clearBlock x0 y0 dx dy => Sys2Proof.Machine.execClearBlock x0 y0 dx dy s
  | .release => Sys2Proof.Machine.execRelease s
  | .reserved14 => Sys2Proof.Machine.execReserved14 s
  | .reserved15 => Sys2Proof.Machine.execReserved15 s
  | .setLowColumn => Sys2Proof.Machine.execSetLowColumn s
  | .setHighColumn => Sys2Proof.Machine.execSetHighColumn s
  | .memoryMode arg => Sys2Proof.Machine.execMemoryMode arg s
  | .columnAddr first last => Sys2Proof.Machine.execColumnAddr first last s
  | .pageAddr first last => Sys2Proof.Machine.execPageAddr first last s
  | .rightHorizontalScroll => Sys2Proof.Machine.execRightHorizontalScroll s
  | .leftHorizontalScroll => Sys2Proof.Machine.execLeftHorizontalScroll s
  | .verticalAndRightHorizontalScroll => Sys2Proof.Machine.execVerticalAndRightHorizontalScroll s
  | .verticalAndLeftHorizontalScroll => Sys2Proof.Machine.execVerticalAndLeftHorizontalScroll s
  | .deactivateScroll => Sys2Proof.Machine.execDeactivateScroll s
  | .activateScroll => Sys2Proof.Machine.execActivateScroll s
  | .setStartLineBase offset => Sys2Proof.Machine.execSetStartLineBase offset s
  | .setContrast arg => Sys2Proof.Machine.execSetContrast arg s
  | .chargePump arg => Sys2Proof.Machine.execChargePump arg s
  | .segRemapBase remap => Sys2Proof.Machine.execSegRemapBase remap s
  | .setVerticalScrollArea => Sys2Proof.Machine.execSetVerticalScrollArea s
  | .displayAllOnResume => Sys2Proof.Machine.execDisplayAllOnResume s
  | .displayAllOn => Sys2Proof.Machine.execDisplayAllOn s
  | .normalDisplay => Sys2Proof.Machine.execNormalDisplay s
  | .invertDisplay => Sys2Proof.Machine.execInvertDisplay s
  | .setMultiplex arg => Sys2Proof.Machine.execSetMultiplex arg s
  | .displayOff => Sys2Proof.Machine.execDisplayOff s
  | .displayOn => Sys2Proof.Machine.execDisplayOn s
  | .comScanInc => Sys2Proof.Machine.execComScanInc s
  | .comScanDec => Sys2Proof.Machine.execComScanDec s
  | .setDisplayOffset arg => Sys2Proof.Machine.execSetDisplayOffset arg s
  | .setDisplayClockDiv arg => Sys2Proof.Machine.execSetDisplayClockDiv arg s
  | .setPrecharge arg => Sys2Proof.Machine.execSetPrecharge arg s
  | .setComPins arg => Sys2Proof.Machine.execSetComPins arg s
  | .setVcomDetect arg => Sys2Proof.Machine.execSetVcomDetect arg s
  | .memoryModeVert => Sys2Proof.Machine.execMemoryModeVert s
  | .memoryModePage => Sys2Proof.Machine.execMemoryModePage s
  | .externalVcc => Sys2Proof.Machine.execExternalVcc s
  | .switchCapVcc => Sys2Proof.Machine.execSwitchCapVcc s

end Sys2Proof.Machine
end

