-- ==== Sys2Proof/Machine/Step.lean ====
section
/-! DEFINITION. One step of the block: a served reset, an operation resumed, or a code taken and run (R60, R230). -/

namespace Sys2Proof.Machine

/-- Decode a code and run it. -/
def runCode (c : Code) (s : State) : Result :=
  match decode c with
  | .ok i => exec i s
  | .error e => .refused (.undecodable e)

/-- One step. Reset is taken only between operations (R231). A busy block goes on with its operation and accepts nothing
(R30). An idle block takes the next code; with none it waits (R36). -/
def step (s : State) : Host.Outcome State Fault Refusal :=
  if s.resetLine then
    if s.busy then .refused .resetWhileBusy else .next s.hardReset
  else if s.busy then resume s
  else
    match s.preload with
    | some c => runCode c { s with preload := none }
    | none =>
      match s.inbox with
      | [] => .next s
      | w :: rest => runCode (.request w) { s with inbox := rest }

/-- `s` with the instruction of a table word where the next step takes its code: a request at the front of the host's
requests, a wire command as the preloaded code; the block idle and the reset line low (notes/assumptions/8). -/
def State.withFetchWord (s : State) (nbits w : Nat) : State :=
  match codeOfTableWord nbits w with
  | .request r => { s with inbox := r :: s.inbox, preload := none, seq := none, resetLine := false }
  | c => { s with preload := some c, seq := none, resetLine := false }

end Sys2Proof.Machine
end

