-- ==== Sys2Proof/Machine/Ports.lean ====
section
/-! DEFINITION. The ports of 30_encoding.md R91 as views of the state and of a transaction, and the byte image of a
transaction (R89). No meaning and no step uses them; no rule depends on the binding (R91, decision D36). A port that carries
nothing has no value: the spec gives it none then (notes/assumptions/22). The clock has no view (00_scope.md R5). -/

namespace Sys2Proof.Machine

/-! ## The fields of a transaction (R88, R91) -/

/-- `tx_kind`: the transaction kind code (R88). -/
def Transaction.kind : Transaction → BitVec 2
  | .openBus _ => 0#2
  | .writeByte _ _ _ _ => 1#2
  | .writeBlock _ _ _ _ => 2#2

/-- `tx_bus_id`: the 32-bit pattern of an OPEN's identifier; a write carries none. -/
def Transaction.portBusId : Transaction → Option (BitVec 32)
  | .openBus busId => some (BitVec.ofInt 32 busId)
  | .writeByte _ _ _ _ => none
  | .writeBlock _ _ _ _ => none

/-- `tx_handle`: an OPEN carries none. -/
def Transaction.portHandle : Transaction → Option Handle
  | .openBus _ => none
  | .writeByte h _ _ _ => some h
  | .writeBlock h _ _ _ => some h

/-- `tx_addr`: an OPEN carries none. -/
def Transaction.portAddr : Transaction → Option (BitVec 7)
  | .openBus _ => none
  | .writeByte _ addr _ _ => some addr
  | .writeBlock _ addr _ _ => some addr

/-- `tx_prefix`: the control prefix; an OPEN carries none. -/
def Transaction.portCtrl : Transaction → Option Byte
  | .openBus _ => none
  | .writeByte _ _ ctrl _ => some ctrl
  | .writeBlock _ _ ctrl _ => some ctrl

/-- The payload of a write: what follows the control prefix; an OPEN has none. -/
def Transaction.payload : Transaction → Option (List Byte)
  | .openBus _ => none
  | .writeByte _ _ _ value => some [value]
  | .writeBlock _ _ _ bytes => some bytes

/-- `tx_len`: the number of payload bytes, 1 to 16 (R88); an OPEN carries none. -/
def Transaction.portLen (t : Transaction) : Option (BitVec 5) := t.payload.map fun bs => BitVec.ofNat 5 bs.length

/-- Bytes packed with byte `i` in bits `[8i+7 : 8i]` (R91). The bits above the last byte are 0: the model's choice, the spec
is silent on them (notes/assumptions/22). -/
def packBytes : List Byte → BitVec 128
  | [] => 0#128
  | b :: bs => (packBytes bs <<< 8) ||| b.setWidth 128

/-- `tx_data`: the payload packed; an OPEN carries none. -/
def Transaction.portData (t : Transaction) : Option (BitVec 128) := t.payload.map packBytes

/-- The byte image of a write transaction: the control prefix, then the payload (R89); an open has none. -/
def Transaction.image : Transaction → List Byte
  | .openBus _ => []
  | .writeByte _ _ ctrl value => [ctrl, value]
  | .writeBlock _ _ ctrl bytes => ctrl :: bytes

/-! ## The transaction presented to the transport (R143) -/

/-- A command write of the block: its handle, its address, prefix 0x00 (R88, R141). -/
def State.commandTx (s : State) (h : Handle) (b : Byte) : Transaction := .writeByte h s.devAddr Config.cmdPrefix b

/-- A data write of the block: its handle, its address, prefix 0x40 (R88, R142). -/
def State.dataTx (s : State) (h : Handle) (bs : List Byte) : Transaction := .writeBlock h s.devAddr Config.dataPrefix bs

/-- The first transaction of what an operation still has to send: the next command byte, else the next data block. -/
def State.nextTx (s : State) (cmds : List Byte) (blocks : List (List Byte)) : Option Transaction :=
  match s.handle, cmds, blocks with
  | some h, b :: _, _ => some (s.commandTx h b)
  | some h, [], bs :: _ => some (s.dataTx h bs)
  | _, _, _ => none

/-- The transaction the block presents and waits on (R143). -/
def State.pendingTx (s : State) : Option Transaction :=
  match s.seq with
  | none => none
  | some p =>
    match p.job with
    | .construct busId _ _ _ => some (.openBus busId)
    | .init => s.nextTx (initRom.drop p.idx.toNat) []
    | .flush => s.nextTx (s.windowCmds.drop p.idx.toNat) (s.dataBlocks p.ptr.toNat)
    | .clearFlush => s.nextTx (s.windowCmds.drop p.idx.toNat) (s.dataBlocks p.ptr.toNat)
    | .command _ b => s.nextTx ([b].drop p.idx.toNat) []
    | .wire bytes => s.nextTx (bytes.drop p.idx.toNat) []

/-- `tx_valid`: a transaction is presented; its fields are those of `pendingTx`. That it is high in every state of a busy
block with a transaction due is the model's choice, DESIGN CHOICE, notes/assumptions/22. -/
def State.txValid (s : State) : Bool := s.pendingTx.isSome

/-- `ta_valid`: an answer is listed. That it is high whenever one is, even at an idle block that presents no transaction, is
the model's choice, DESIGN CHOICE, notes/assumptions/22: R91 specifies no cycle-level behaviour. -/
def State.taValid (s : State) : Bool := s.answers.head?.isSome

/-- `ta_error`: of the first answer listed, while `ta_valid` (notes/assumptions/22). -/
def State.taError (s : State) : Option Bool := s.answers.head?.map Answer.error

/-- `ta_handle`: of the first answer listed, while `ta_valid`, whatever its transaction is (notes/assumptions/22). -/
def State.taHandle (s : State) : Option Handle := s.answers.head?.map Answer.handle

/-! ## The host's side (R30, R86) -/

/-- `req_valid`: the host presents a request. That it is high whenever one is listed, even at a busy block, is the model's
choice, DESIGN CHOICE, notes/assumptions/22. -/
def State.reqValid (s : State) : Bool := s.inbox.head?.isSome

/-- `req`: the first request listed, while `req_valid` (notes/assumptions/22). -/
def State.req (s : State) : Option ReqWord := s.inbox.head?

/-- `req_ready`, equal to `not BUSY` (R91). -/
def State.reqReady (s : State) : Bool := !s.busy

/-- An operation runs in the next step: one is in progress, or a code is taken. -/
def State.operating (s : State) : Bool := !s.resetLine && (s.busy || s.preload.isSome || s.reqValid)

/-- The state in which the next step leaves a block whose operation that step completes; none where it completes none. -/
def State.completing (s : State) : Option State :=
  if s.operating then
    match step s with
    | .next t => if t.busy then none else some t
    | .fault _ => none
    | .refused _ => none
  else none

/-- `rsp_valid`: the next step produces a response, which is when it completes an operation (R86). That the port shows it in
the state before that step is the model's choice, DESIGN CHOICE, notes/assumptions/22. -/
def State.rspValid (s : State) : Bool := s.completing.isSome

/-- `rsp_status`, while `rsp_valid`. -/
def State.rspStatus (s : State) : Option (BitVec 3) := s.completing.map fun t => t.status.code

/-- `rsp_value`, while `rsp_valid`. -/
def State.rspValue (s : State) : Option Slot := s.completing.map State.rval

end Sys2Proof.Machine
end

