-- ==== Sys2Proof/Safety.lean ====
section
/-! DEFINITION. What a state of a run looks like (spec/10_state.md R27) and the terms the claims are stated in. -/

namespace Sys2Proof.Machine

/-! ## The invariant -/

/-- R27 (a): `Uninitialized` exactly when the geometry registers are 0. -/
abbrev State.LifecycleInv (s : State) : Prop :=
  s.lstate = .uninitialized ↔ s.width = 0#9 ∧ s.height = 0#12 ∧ s.pages = 0#9

/-- R27 (b): the geometry of a constructed block. -/
abbrev State.GeometryInv (s : State) : Prop :=
  s.lstate ≠ .uninitialized →
    0 < s.width.toNat ∧ s.width.toNat ≤ Config.maxWidth ∧ 0 < s.pages.toNat ∧ s.pages.toNat ≤ Config.maxPages ∧
      s.height.toNat = 8 * s.pages.toNat ∧ s.size ≤ s.cfg.fbCapacity

/-- R26, R27 (c): the framebuffer is in canonical form and lies in `0 .. N-1`. -/
abbrev State.FramebufferInv (s : State) : Prop := Memory.wf s.fb = true ∧ Memory.below s.size s.fb = true

/-- R22: `HANDLE` holds a value exactly while the block is constructed. -/
abbrev State.HandleInv (s : State) : Prop := s.handle.isSome = true ↔ s.lstate ≠ .uninitialized

/-- R36: `DEVADDR` is the default while the block is not constructed. -/
abbrev State.AddressInv (s : State) : Prop := s.lstate = .uninitialized → s.devAddr = Config.defaultAddr

/-- R201: an error response carries `RVAL = 0`. -/
abbrev State.ResponseInv (s : State) : Prop := s.status ≠ .ok → s.rval = 0#32

/-- A flush stands at one of its six window commands, or at a block boundary short of `N` (R31, R182). -/
def State.flushPositionOk (s : State) (p : Position) : Bool :=
  decide (p.idx.toNat < 6 ∧ p.ptr = 0#17) ||
    decide (p.idx.toNat = 6 ∧ p.ptr.toNat < s.size ∧ p.ptr.toNat % Config.chunk = 0)

/-- A position is one a run can stop at: a transaction is still due, in a lifecycle state that permits the operation
(R29, R31). -/
def State.positionOk (s : State) (p : Position) : Bool :=
  match p.job with
  | .construct _ _ height width =>
    decide (s.lstate = .uninitialized) && dimsOk height width s.cfg && decide (p.idx = 0#5 ∧ p.ptr = 0#17)
  | .init => s.constructed && decide (p.idx.toNat < 24 ∧ p.ptr = 0#17)
  | .flush => s.flushable && s.flushPositionOk p
  | .clearFlush => s.flushable && s.flushPositionOk p && decide (s.fb = [])
  | .command op _ => s.constructed && decide ((op = 5#4 ∨ op = 7#4 ∨ op = 8#4) ∧ p.idx = 0#5 ∧ p.ptr = 0#17)
  | .wire bytes => s.constructed && decide (bytes.length ≤ 3 ∧ p.idx.toNat < bytes.length ∧ p.ptr = 0#17)

/-- The sequencer position of a run (R30, R31). -/
abbrev State.SequencerInv (s : State) : Prop := ∀ p ∈ s.seq, s.positionOk p = true

/-- What holds of every state of a run from reset. -/
structure State.Inv (s : State) : Prop where
  lifecycle : s.LifecycleInv
  geometry : s.GeometryInv
  framebuffer : s.FramebufferInv
  handle : s.HandleInv
  address : s.AddressInv
  response : s.ResponseInv
  sequencer : s.SequencerInv

/-! ## Transactions and answers -/

/-- A transaction of a shape the block issues, with an answer of its kind (R88, R142, R182). -/
def TraceEntry.wellFormed : TraceEntry → Bool
  | ⟨.openBus _, .ok⟩ => false
  | ⟨.openBus _, _⟩ => true
  | ⟨.writeByte _ _ ctrl _, r⟩ => decide (ctrl = Config.cmdPrefix ∧ (r = .ok ∨ r = .error))
  | ⟨.writeBlock _ _ ctrl bytes, r⟩ =>
    decide (ctrl = Config.dataPrefix ∧ 1 ≤ bytes.length ∧ bytes.length ≤ Config.chunk ∧ (r = .ok ∨ r = .error))

/-- A write entry carries this handle and this address. -/
def TraceEntry.addressed (h : Option Handle) (addr : BitVec 7) : TraceEntry → Bool
  | ⟨.openBus _, _⟩ => true
  | ⟨.writeByte h' a _ _, _⟩ => decide (h = some h' ∧ a = addr)
  | ⟨.writeBlock h' a _ _, _⟩ => decide (h = some h' ∧ a = addr)

/-- Every answer is `Ok`. -/
abbrev allOk (as : List Answer) : Prop := ∀ a ∈ as, a.error = false

/-- Command writes answered `Ok`, in order. -/
def okCommands (h : Handle) (addr : BitVec 7) (bytes : List Byte) : List TraceEntry :=
  bytes.map fun b => ⟨.writeByte h addr 0x00#8 b, .ok⟩

/-- Data writes answered `Ok`, in order. -/
def okBlocks (h : Handle) (addr : BitVec 7) (blocks : List (List Byte)) : List TraceEntry :=
  blocks.map fun bs => ⟨.writeBlock h addr 0x40#8 bs, .ok⟩

/-- The whole framebuffer as bytes, `FB[0], FB[1], ..., FB[N-1]`. -/
def State.fbBytes (s : State) : List Byte := s.memRead 0 s.size

/-- The state after an operation that completed with `st` and `v` and logged `entries`, `rest` being the answers still to
come: nothing else differs from `s`. -/
def State.completed (s : State) (st : Status) (v : Slot) (entries : List TraceEntry) (rest : List Answer) : State :=
  { s with status := st, rval := v, seq := none, trace := s.trace ++ entries, answers := rest }

/-- The device has been sent the whole initialization sequence, every byte of it answered `Ok` in one run of writes to the
present handle and address. -/
def State.InitSent (s : State) : Prop :=
  ∃ h, s.handle = some h ∧ okCommands h s.devAddr initRom <:+: s.trace

/-- `InitSent` wherever FLUSH is permitted, with what an INIT in progress has sent so far (R21, R165). -/
structure State.InitHistoryInv (s : State) : Prop where
  flushable : s.flushable = true → s.InitSent
  inProgress : ∀ p ∈ s.seq, p.job = .init →
    ∃ h, s.handle = some h ∧ okCommands h s.devAddr (initRom.take p.idx.toNat) <:+ s.trace

/-! ## Renaming of handles -/

/-- A transaction with its handle renamed. -/
def Transaction.mapHandle (f : Handle → Handle) : Transaction → Transaction
  | .openBus b => .openBus b
  | .writeByte h a c v => .writeByte (f h) a c v
  | .writeBlock h a c bs => .writeBlock (f h) a c bs

/-- A recorded answer with its handle renamed. -/
def Reply.mapHandle (f : Handle → Handle) : Reply → Reply
  | .ok => .ok
  | .opened h => .opened (f h)
  | .error => .error

/-- A state with every handle in it renamed: the register, the history, the answers to come. -/
def State.mapHandle (f : Handle → Handle) (s : State) : State :=
  { s with
    handle := s.handle.map f
    trace := s.trace.map fun e => ⟨e.tx.mapHandle f, e.reply.mapHandle f⟩
    answers := s.answers.map fun a => ⟨a.error, f a.handle⟩ }

/-- A result with every handle in its next state renamed. -/
def mapResult (f : State → State) : Result → Result
  | .next s => .next (f s)
  | .fault r => .fault r
  | .refused r => .refused r

/-! ## Families of instructions -/

/-- The requests of the host (R82, R85). -/
def isRequest : Instr → Bool
  | .construct _ _ _ _ | .init | .flush | .clear | .clearFlush | .setStartLine _ | .writeRaw _ _ | .actScroll
  | .deactScroll | .scrollCfg _ _ | .getPages | .drawPixel _ _ _ | .clearBlock _ _ _ _ | .release | .reserved14
  | .reserved15 => true
  | .memoryMode _ | .columnAddr _ _ | .pageAddr _ _ | .deactivateScroll | .activateScroll | .setStartLineBase _
  | .setContrast _ | .chargePump _ | .segRemapBase _ | .normalDisplay | .setMultiplex _ | .displayOff | .displayOn
  | .comScanDec | .setDisplayOffset _ | .setDisplayClockDiv _ | .setPrecharge _ | .setComPins _ | .setVcomDetect _
  | .setLowColumn | .setHighColumn | .rightHorizontalScroll | .leftHorizontalScroll
  | .verticalAndRightHorizontalScroll | .verticalAndLeftHorizontalScroll | .setVerticalScrollArea
  | .displayAllOnResume | .displayAllOn | .invertDisplay | .comScanInc
  | .memoryModeVert | .memoryModePage | .externalVcc | .switchCapVcc => false

/-- The wire commands some operation of the block sends (R95). -/
def isSentCommand : Instr → Bool
  | .memoryMode _ | .columnAddr _ _ | .pageAddr _ _ | .deactivateScroll | .activateScroll | .setStartLineBase _
  | .setContrast _ | .chargePump _ | .segRemapBase _ | .normalDisplay | .setMultiplex _ | .displayOff | .displayOn
  | .comScanDec | .setDisplayOffset _ | .setDisplayClockDiv _ | .setPrecharge _ | .setComPins _
  | .setVcomDetect _ => true
  | .construct _ _ _ _ | .init | .flush | .clear | .clearFlush | .setStartLine _ | .writeRaw _ _ | .actScroll
  | .deactScroll | .scrollCfg _ _ | .getPages | .drawPixel _ _ _ | .clearBlock _ _ _ _ | .release | .reserved14
  | .reserved15
  | .setLowColumn | .setHighColumn | .rightHorizontalScroll | .leftHorizontalScroll
  | .verticalAndRightHorizontalScroll | .verticalAndLeftHorizontalScroll | .setVerticalScrollArea
  | .displayAllOnResume | .displayAllOn | .invertDisplay | .comScanInc
  | .memoryModeVert | .memoryModePage | .externalVcc | .switchCapVcc => false

end Sys2Proof.Machine
end

