-- ==== Sys2Proof/Certificates/Slice0/Obligations.lean ====
section
/-! DEFINITION. The statements for the provers. Each docstring names the rule it formalises; where a rule rests on a
decision of 92_eei_decisions.md (D<n>) the docstring says so and the statement is listed as derived. -/

open Sys2Proof Sys2Proof.Machine

/-! ## Reset and stepping -/

/-- The state after reset (10_state.md R36, 70_reset_and_hazards.md R230; the spec's decision D11), with `FB_CAPACITY` at its
default (R9, D7) and the inputs empty (the model's choice, notes/assumptions/3, 5, 6, 8 and 9). -/
def Obligations.ResetLeavesTheInitialState : Prop :=
  State.reset.lstate = .uninitialized ∧ State.reset.handle = none ∧ State.reset.devAddr = 0x3C#7 ∧
    State.reset.width = 0#9 ∧ State.reset.height = 0#12 ∧ State.reset.pages = 0#9 ∧ State.reset.size = 0 ∧
    State.reset.fb = [] ∧ State.reset.busy = false ∧ State.reset.seqOp = none ∧ State.reset.seqIdx = none ∧
    State.reset.fbPtr = none ∧ State.reset.status = .ok ∧ State.reset.rval = 0#32 ∧ State.reset.trace = [] ∧
    State.reset.cfg.fbCapacity = 65536 ∧ State.reset.inbox = [] ∧ State.reset.answers = [] ∧
    State.reset.resetLine = false ∧ State.reset.preload = none

/-- The state after reset meets the invariant of R27 and the history invariant of the initialization. -/
def Obligations.ResetMeetsTheInvariants : Prop := State.reset.Inv ∧ State.reset.InitHistoryInv

/-- The reset line (R230, R231; the spec's decision D11): a reset between operations gives the reset state; a reset of a busy
block, which the spec leaves unspecified and tells a model to refuse, is refused. Three clauses are the model's choice,
notes/assumptions/6: that a step serves the line, that the line is low afterwards (`resetLine` goes from high to low), and
that the parameters and the other inputs (`inbox`, `answers`, `preload`) stay as they are. -/
def Obligations.ResetLineOnlyBetweenOperations : Prop :=
  ∀ s : State, s.resetLine = true →
    (s.busy = false →
      step s = .next { State.reset with cfg := s.cfg, inbox := s.inbox, answers := s.answers, preload := s.preload }) ∧
    (s.busy = true → step s = .refused .resetWhileBusy)

/-- A step of an idle block is the instruction that the request presented decodes to, with that request taken; a busy
block goes on with its operation (20_memory.md R60; 10_state.md R30, R36). Two clauses are the model's choice: that a
code put at the sequencer from outside is run in the same way (notes/assumptions/8), and that an idle block with
nothing to do answers a next state, itself (notes/assumptions/12). -/
def Obligations.StepRunsTheDecodedInstruction : Prop :=
  ∀ s : State, s.resetLine = false →
    (∀ w rest i, s.busy = false → s.preload = none → s.inbox = w :: rest → decode (.request w) = .ok i → i.wf = true →
      step s = exec i { s with inbox := rest }) ∧
    (∀ c i, s.busy = false → s.preload = some c → decode c = .ok i → i.wf = true →
      step s = exec i { s with preload := none }) ∧
    (s.busy = true → step s = resume s) ∧
    (s.busy = false → s.preload = none → s.inbox = [] → step s = .next s)

/-! ## Encoding -/

/-- Words written out from the encodings of R80 to R83, R92, R93 and R98 decode to the instructions they stand for. -/
def Obligations.HandWrittenWordsDecode : Prop :=
  decode (.request 0x00000080000000400000003C000000010#132) = .ok (.construct 1 0x3C#7 64 128) ∧
  decode (.request 0x0000008000000040000000BCFFFFFFFF0#132) = .ok (.construct (-1) 0x3C#7 64 128) ∧
  decode (.request 0x000000000000000000000000000000001#132) = .ok .init ∧
  decode (.request 0x00000000000000010000001400000005B#132) = .ok (.drawPixel 5 20 true) ∧
  decode (.request 0x000000080000000500000004FFFFFFFEC#132) = .ok (.clearBlock (-2) 4 5 8) ∧
  decode (.request 0x0000000000000000FFFFFFFF000000016#132) = .ok (.writeRaw 0x01#8 (-1)) ∧
  decode (.request 0x000000000000000000000000000001455#132) = .ok (.setStartLine 0x45#8) ∧
  decode (.wire [0xA8#8, 0x3F#8]) = .ok (.setMultiplex 0x3F#8) ∧
  decode (.wire [0x21#8, 0x00#8, 0x7F#8]) = .ok (.columnAddr 0x00#8 0x7F#8) ∧
  decode (.wire [0x45#8]) = .ok (.setStartLineBase 5#6) ∧
  decode (.wire [0xA1#8]) = .ok (.segRemapBase true) ∧
  decode (.argument .memoryMode 0x02#8) = .ok .memoryModePage

/-- Decoding an encoded well-formed instruction gives it back: every row of the table, every operand at every value its
field admits (R80 to R83, R92, R93, R95, R98). That a never-sent name is its one byte (notes/assumptions/21) and which
command the two VCC flags are filed beside (notes/assumptions/10) are the model's choices. -/
def Obligations.DecodeOfEncodeIsTheInstruction : Prop :=
  ∀ i : Instr, i.wf = true → decode (encode i) = .ok i

/-- Every 132-bit word is a request of its own operation code: reading it gives a well-formed request, and the word the
encoder writes for that request carries the same operation code and reads the same (R80, R82, R85). -/
def Obligations.EveryRequestWordIsRead : Prop :=
  ∀ w : ReqWord, (decodeRequest w).wf = true ∧ isRequest (decodeRequest w) = true ∧
    ∃ w', encode (decodeRequest w) = .request w' ∧ w'.op = w.op ∧ decodeRequest w' = decodeRequest w

/-- The operand bits each operation ignores do not matter (R83, the spec's decision D21; 93_implementation_defined.md U10). -/
def Obligations.IgnoredOperandBitsDoNotMatter : Prop :=
  (∀ w w' : ReqWord, w.op = w'.op →
    (w.op ∈ [1#4, 2#4, 3#4, 4#4, 7#4, 8#4, 10#4, 13#4, 14#4, 15#4] → decodeRequest w = decodeRequest w') ∧
    (w.op = 0#4 → w.slotA = w'.slotA → w.slotB.extractLsb' 0 7 = w'.slotB.extractLsb' 0 7 → w.slotC = w'.slotC →
      w.slotD = w'.slotD → decodeRequest w = decodeRequest w') ∧
    (w.op = 5#4 → w.slotA.extractLsb' 0 8 = w'.slotA.extractLsb' 0 8 → decodeRequest w = decodeRequest w') ∧
    (w.op = 6#4 → w.slotA.extractLsb' 0 8 = w'.slotA.extractLsb' 0 8 → w.slotB = w'.slotB →
      decodeRequest w = decodeRequest w') ∧
    (w.op = 9#4 → w.slotA = w'.slotA → w.slotB = w'.slotB → decodeRequest w = decodeRequest w') ∧
    (w.op = 11#4 → w.slotA = w'.slotA → w.slotB = w'.slotB → (w.slotC = 0#32 ↔ w'.slotC = 0#32) →
      decodeRequest w = decodeRequest w') ∧
    (w.op = 12#4 → w.slotA = w'.slotA → w.slotB = w'.slotB → w.slotC = w'.slotC → w.slotD = w'.slotD →
      decodeRequest w = decodeRequest w')) ∧
  (∀ d v d' v' s, exec (.scrollCfg d v) s = exec (.scrollCfg d' v') s)

/-- The 24 bytes of INIT, read by position, are the fifteen steps with their arguments (R166; the pairing of steps with
command bytes is the spec's decision D30). -/
def Obligations.InitRomReadsAsTheFifteenSteps : Prop :=
  initRom.length = 24 ∧
  decodeStream 24 initRom = .ok
    [.displayOff, .setDisplayClockDiv 0x80#8, .setMultiplex 0x3F#8, .setComPins 0x12#8, .setDisplayOffset 0x00#8,
     .setStartLineBase 0#6, .chargePump 0x14#8, .memoryMode 0x00#8, .segRemapBase true, .comScanDec,
     .setContrast 0x8F#8, .setPrecharge 0xF1#8, .setVcomDetect 0x40#8, .normalDisplay, .displayOn]

/-- The bytes of the nineteen wire commands the block sends (R92, R93, R95; the window layout is the spec's D19). -/
def Obligations.WireCommandBytes : Prop :=
  ∀ (a b : Byte) (f : BitVec 6) (r : Bool),
    (encode .displayOff).wireBytes = [0xAE#8] ∧ (encode .displayOn).wireBytes = [0xAF#8] ∧
    (encode .normalDisplay).wireBytes = [0xA6#8] ∧ (encode .comScanDec).wireBytes = [0xC8#8] ∧
    (encode .activateScroll).wireBytes = [0x2F#8] ∧ (encode .deactivateScroll).wireBytes = [0x2E#8] ∧
    (encode (.setStartLineBase f)).wireBytes = [0b01#2 ++ f] ∧
    (encode (.segRemapBase r)).wireBytes = [if r then 0xA1#8 else 0xA0#8] ∧
    (encode (.memoryMode a)).wireBytes = [0x20#8, a] ∧ (encode (.setContrast a)).wireBytes = [0x81#8, a] ∧
    (encode (.chargePump a)).wireBytes = [0x8D#8, a] ∧ (encode (.setMultiplex a)).wireBytes = [0xA8#8, a] ∧
    (encode (.setDisplayOffset a)).wireBytes = [0xD3#8, a] ∧ (encode (.setDisplayClockDiv a)).wireBytes = [0xD5#8, a] ∧
    (encode (.setPrecharge a)).wireBytes = [0xD9#8, a] ∧ (encode (.setComPins a)).wireBytes = [0xDA#8, a] ∧
    (encode (.setVcomDetect a)).wireBytes = [0xDB#8, a] ∧ (encode (.columnAddr a b)).wireBytes = [0x21#8, a, b] ∧
    (encode (.pageAddr a b)).wireBytes = [0x22#8, a, b]

/-! ## The addressing law -/

/-- The addressing law and its inverse (R52): the byte and bit of an in-bounds pixel, and the pixel of a byte and bit. -/
def Obligations.AddressingLaw : Prop :=
  ∀ s : State, s.Inv →
    (∀ x y : Nat, s.inBounds x y = true →
      y / 8 < s.pages.toNat ∧ s.pixelOffset x y = y / 8 + s.pages.toNat * x ∧ s.pixelOffset x y < s.size ∧
      pixelMask y = BitVec.ofNat 8 (2 ^ (y % 8)) ∧
      s.pixelOffset x y / s.pages.toNat = x ∧ 8 * (s.pixelOffset x y % s.pages.toNat) + y % 8 = y) ∧
    (∀ i b : Nat, i < s.size → b < 8 →
      s.inBounds (i / s.pages.toNat : Nat) (8 * (i % s.pages.toNat) + b : Nat) = true ∧
      s.pixelOffset (i / s.pages.toNat) (8 * (i % s.pages.toNat) + b) = i ∧ (8 * (i % s.pages.toNat) + b) % 8 = b)

/-- Two different in-bounds pixels never share a bit, and every bit of every framebuffer byte is exactly one in-bounds pixel
(R54, an inference the spec draws from R52). -/
def Obligations.PixelsAndBitsAreInBijection : Prop :=
  ∀ s : State, s.Inv →
    (∀ x y x' y' : Nat, s.inBounds x y = true → s.inBounds x' y' = true →
      s.pixelOffset x y = s.pixelOffset x' y' → y % 8 = y' % 8 → x = x' ∧ y = y') ∧
    (∀ i b : Nat, i < s.size → b < 8 → ∃ x y : Nat, s.inBounds x y = true ∧ s.pixelOffset x y = i ∧ y % 8 = b)

/-! ## Framebuffer operations -/

/-- CLEAR (R121): from its request word to every byte `FB[0 .. N-1]` 0x00 and every in-bounds pixel off; refused in
`Uninitialized`; nothing else changes and nothing is sent; doing it again gives the same state. -/
def Obligations.ClearZeroesTheFramebuffer : Prop :=
  (∀ w : ReqWord, w.op = 3#4 → decode (.request w) = .ok .clear) ∧
  ∀ s : State, s.busy = false →
    (s.lstate = .uninitialized →
      exec .clear s = .next { s with status := .errPrecond, rval := 0#32, seq := none }) ∧
    (s.lstate ≠ .uninitialized → ∃ t, exec .clear s = .next t ∧
      t = { s with fb := t.fb, status := .ok, rval := 0#32, seq := none } ∧
      (∀ i, i < s.size → t.fbRead i = 0x00#8) ∧
      (∀ x y : Nat, s.inBounds x y = true → t.pixel x y = false) ∧ exec .clear t = .next t)

/-- DRAW_PIXEL (R122): from its request word to the byte it writes; every other byte reads as before; out of bounds nothing
is written and the status is `OK`; refused in `Uninitialized`. -/
def Obligations.DrawPixelWritesOneBit : Prop :=
  (∀ w : ReqWord, w.op = 11#4 →
    decode (.request w) = .ok (.drawPixel (sint w.slotA) (sint w.slotB) (decide (w.slotC ≠ 0#32)))) ∧
  ∀ (s : State) (x y : Int) (on : Bool), s.busy = false →
    (s.lstate = .uninitialized →
      exec (.drawPixel x y on) s = .next { s with status := .errPrecond, rval := 0#32, seq := none }) ∧
    (s.lstate ≠ .uninitialized → ¬ (0 ≤ x ∧ x < s.width.toNat ∧ 0 ≤ y ∧ y < s.height.toNat) →
      exec (.drawPixel x y on) s = .next { s with status := .ok, rval := 0#32, seq := none }) ∧
    (s.Inv → s.lstate ≠ .uninitialized → 0 ≤ x ∧ x < s.width.toNat ∧ 0 ≤ y ∧ y < s.height.toNat →
      ∃ t, exec (.drawPixel x y on) s = .next t ∧
        t = { s with fb := t.fb, status := .ok, rval := 0#32, seq := none } ∧
        t.fbRead (y.toNat / 8 + s.pages.toNat * x.toNat) =
          (if on then s.fbRead (y.toNat / 8 + s.pages.toNat * x.toNat) ||| 1#8 <<< (y.toNat % 8)
           else s.fbRead (y.toNat / 8 + s.pages.toNat * x.toNat) &&& ~~~ (1#8 <<< (y.toNat % 8))) ∧
        ∀ a, a ≠ y.toNat / 8 + s.pages.toNat * x.toNat → t.fbRead a = s.fbRead a)

/-- Properties of DRAW_PIXEL (R123 (a), (b), (d), (e), which the spec infers from R122): set then read, no aliasing,
idempotent, different pixels commute. -/
def Obligations.DrawPixelSetThenReadAndNoAliasing : Prop :=
  ∀ (s : State) (x y : Nat) (on : Bool), s.Inv → s.busy = false → s.inBounds x y = true →
    ∃ t, exec (.drawPixel x y on) s = .next t ∧ t.pixel x y = on ∧
      (∀ x' y' : Nat, s.inBounds x' y' = true → (x', y') ≠ (x, y) → t.pixel x' y' = s.pixel x' y') ∧
      exec (.drawPixel x y on) t = .next t ∧
      (∀ (x' y' : Nat) (on' : Bool), s.inBounds x' y' = true → (x', y') ≠ (x, y) →
        ∃ t' u, exec (.drawPixel x' y' on') s = .next t' ∧ exec (.drawPixel x' y' on') t = .next u ∧
          exec (.drawPixel x y on) t' = .next u)

/-- CLEAR_BLOCK pixel by pixel (R125, an inference the spec draws from R124): exactly the in-bounds pixels of the rectangle
are off, every other pixel and every byte outside its columns as before. -/
def Obligations.ClearBlockClearsExactlyTheRectangle : Prop :=
  ∀ (s : State) (x0 y0 dx dy : Int), s.busy = false →
    (s.lstate = .uninitialized →
      exec (.clearBlock x0 y0 dx dy) s = .next { s with status := .errPrecond, rval := 0#32, seq := none }) ∧
    (s.Inv → s.lstate ≠ .uninitialized → ∃ t, exec (.clearBlock x0 y0 dx dy) s = .next t ∧
      t = { s with fb := t.fb, status := .ok, rval := 0#32, seq := none } ∧
      (∀ x y : Nat, s.inBounds x y = true →
        t.pixel x y =
          (if x0 ≤ x ∧ (x : Int) < x0 + dx ∧ y0 ≤ y ∧ (y : Int) < y0 + dy then false else s.pixel x y)) ∧
      (∀ a : Nat, ¬ (x0 ≤ ((a / s.pages.toNat : Nat) : Int) ∧ ((a / s.pages.toNat : Nat) : Int) < x0 + dx) →
        t.fbRead a = s.fbRead a))

/-- CLEAR_BLOCK is the loop of DRAW_PIXEL `off` over the rectangle, column by column (R124, R103; the order of the cells is
the spec's decision D29): the closed form the model runs leaves the same state. -/
def Obligations.ClearBlockIsTheLoopOfDrawPixel : Prop :=
  ∀ (s : State) (x0 y0 dx dy : Int), s.Inv → s.busy = false → s.lstate ≠ .uninitialized →
    ∃ t, s.clearBlockByPixels x0 y0 dy.toNat dx.toNat = .ok t ∧
      exec (.clearBlock x0 y0 dx dy) s = .next { t with status := .ok, rval := 0#32, seq := none }

/-- WRITE_RAW (R126; the narrow operand is the spec's decision D21): one byte inside `0 .. N-1`, `ERR_PRECOND` outside it
and in `Uninitialized`; the byte is eight pixels at once (R56). -/
def Obligations.WriteRawReplacesOneByte : Prop :=
  ∀ (s : State) (v : Byte) (off : Int), s.busy = false →
    (s.lstate = .uninitialized ∨ off < 0 ∨ (s.size : Int) ≤ off →
      exec (.writeRaw v off) s = .next { s with status := .errPrecond, rval := 0#32, seq := none }) ∧
    (s.Inv → s.lstate ≠ .uninitialized → 0 ≤ off → off < s.size → ∃ t, exec (.writeRaw v off) s = .next t ∧
      t = { s with fb := t.fb, status := .ok, rval := 0#32, seq := none } ∧
      t.fbRead off.toNat = v ∧ (∀ a, a ≠ off.toNat → t.fbRead a = s.fbRead a) ∧
      (∀ b, b < 8 → t.pixel (off.toNat / s.pages.toNat) (8 * (off.toNat % s.pages.toNat) + b) = v.getLsbD b))

/-- What is not an error (R202): pixels out of bounds, an empty rectangle, the scroll stub, a start line above 63, INIT on
any height, RELEASE in `Uninitialized`. -/
def Obligations.WhatIsNotAnError : Prop :=
  ∀ s : State, s.Inv → s.busy = false →
    (s.lstate = .uninitialized → ∃ t, exec .release s = .next t ∧ t.status = .ok) ∧
    (s.lstate ≠ .uninitialized →
      (∀ x y on, ∃ t, exec (.drawPixel x y on) s = .next t ∧ t.status = .ok ∧
        (s.inBounds x y = false → t.fb = s.fb)) ∧
      (∀ x y dx dy, ∃ t, exec (.clearBlock x y dx dy) s = .next t ∧ t.status = .ok ∧
        (dx ≤ 0 ∨ dy ≤ 0 → t.fb = s.fb)) ∧
      (∀ d v, ∃ t, exec (.scrollCfg d v) s = .next t ∧ t.status = .ok) ∧
      (∀ offset a rest, s.answers = a :: rest → a.error = false →
        ∃ t, exec (.setStartLine offset) s = .next t ∧ t.status = .ok) ∧
      (∀ as rest, s.answers = as ++ rest → allOk as → as.length = 24 →
        ∃ t, exec .init s = .next t ∧ t.status = .ok))

/-! ## Construction, release, queries -/

/-- `WIDTH` and `HEIGHT` (R24): what a successful CONSTRUCT leaves in them, and that no operation but CONSTRUCT and RELEASE
writes them. -/
def Obligations.GeometryIsFixedAtConstruction : Prop :=
  ∀ (i : Instr) (s t : State), s.busy = false → exec i s = .next t →
    (∀ b a height width, i = .construct b a height width → t.busy = false → t.status = .ok →
      (t.width.toNat : Int) = width ∧ (t.height.toNat : Int) = height ∧ 1 ≤ t.width.toNat ∧ t.width.toNat ≤ 256 ∧
      0 < t.height.toNat ∧ t.height.toNat % 8 = 0 ∧ t.height.toNat ≤ 2048 ∧ t.pages.toNat = t.height.toNat / 8) ∧
    ((∀ b a height width, i ≠ .construct b a height width) → i ≠ .release → t.width = s.width ∧ t.height = s.height)

/-- A CONSTRUCT that succeeds (R150 to R153; the order of its checks is the spec's decision D12, its upper limits D6,
D7): the registers, the framebuffer bytes `0 .. N-1` all 0x00, one `OPEN`. -/
def Obligations.ConstructAcquiresAndZeroFills : Prop :=
  ∀ (s : State) (busId : Int) (addr : BitVec 7) (height width : Int) (a : Answer) (rest : List Answer),
    s.busy = false → s.lstate = .uninitialized →
    0 < height ∧ height % 8 = 0 ∧ 0 < width ∧ width ≤ 256 ∧ height / 8 ≤ 256 ∧ width * (height / 8) ≤ s.cfg.fbCapacity →
    s.answers = a :: rest → a.error = false →
    ∃ t, exec (.construct busId addr height width) s = .next t ∧
      t = { s with
        lstate := .busAcquired, handle := some a.handle, devAddr := addr, width := t.width, height := t.height,
        pages := t.pages, fb := t.fb, status := .ok, rval := 0#32, seq := none,
        trace := s.trace ++ [⟨.openBus busId, .opened a.handle⟩], answers := rest } ∧
      (t.width.toNat : Int) = width ∧ (t.height.toNat : Int) = height ∧ (t.pages.toNat : Int) = height / 8 ∧
      (t.size : Int) = width * (height / 8) ∧ ∀ i, i < t.size → t.fbRead i = 0x00#8

/-- A CONSTRUCT that does not succeed (R150 to R152, R157, R211; the spec's decisions D6, D7, D12, D13): wrong state
and bad dimensions open nothing and change nothing; a bus that does not open leaves only the `OPEN` in `TRACE`; a
silent transport leaves the block busy (R30, R143, R238). That it is left in progress with that state is the model's
choice (notes/assumptions/2, 5 and 19), and that `STATUS` and `RVAL` still hold the response before is its inference
(notes/assumptions/17). -/
def Obligations.ConstructRefusedOrFailedChangesNothing : Prop :=
  ∀ (s : State) (busId : Int) (addr : BitVec 7) (height width : Int), s.busy = false →
    (s.lstate ≠ .uninitialized ∨
      ¬ (0 < height ∧ height % 8 = 0 ∧ 0 < width ∧ width ≤ 256 ∧ height / 8 ≤ 256 ∧
        width * (height / 8) ≤ s.cfg.fbCapacity) →
      exec (.construct busId addr height width) s =
        .next { s with status := .errPrecond, rval := 0#32, seq := none }) ∧
    (s.lstate = .uninitialized → dimsOk height width s.cfg = true →
      (∀ a rest, s.answers = a :: rest → a.error = true →
        exec (.construct busId addr height width) s =
          .next { s with
            status := .errResource, rval := 0#32, seq := none, trace := s.trace ++ [⟨.openBus busId, .error⟩],
            answers := rest }) ∧
      (s.answers = [] →
        exec (.construct busId addr height width) s =
          .next { s with seq := some ⟨.construct busId addr height width, 0#5, 0#17⟩ }))

/-- RELEASE (R154, R36; the spec's decision D24): accepted in every lifecycle state, sends nothing, and leaves the reset
state with `TRACE` kept (the parameters and the inputs are no state of the block and stay). -/
def Obligations.ReleaseLeavesTheResetState : Prop :=
  ∀ s : State, s.busy = false →
    exec .release s =
      .next { State.reset with
        trace := s.trace, cfg := s.cfg, inbox := s.inbox, answers := s.answers, resetLine := s.resetLine,
        preload := s.preload }

/-- GET_PAGES (R155; the value and the refusal in `Uninitialized` are the spec's decisions D34, D14). -/
def Obligations.GetPagesReturnsPages : Prop :=
  ∀ s : State, s.busy = false →
    (s.lstate = .uninitialized →
      exec .getPages s = .next { s with status := .errPrecond, rval := 0#32, seq := none }) ∧
    (s.lstate ≠ .uninitialized → ∃ t, exec .getPages s = .next t ∧
      t = { s with status := .ok, rval := t.rval, seq := none } ∧ t.rval.toNat = s.pages.toNat)

/-- SCROLL_CFG (R156; the status is the spec's decision D23, the refusal in `Uninitialized` D14): `OK` and no effect. -/
def Obligations.ScrollCfgHasNoEffect : Prop :=
  ∀ (s : State) (direction speed : Slot), s.busy = false →
    exec (.scrollCfg direction speed) s =
      .next { s with
        status := if s.lstate = .uninitialized then .errPrecond else .ok, rval := 0#32, seq := none }

/-- The reserved codes (R85, the spec's decision D22): `ERR_PRECOND` in every lifecycle state, nothing else changed. -/
def Obligations.ReservedCodesEndWithErrPrecond : Prop :=
  (∀ w : ReqWord, w.op = 14#4 → decode (.request w) = .ok .reserved14) ∧
  (∀ w : ReqWord, w.op = 15#4 → decode (.request w) = .ok .reserved15) ∧
  ∀ s : State, s.busy = false →
    exec .reserved14 s = .next { s with status := .errPrecond, rval := 0#32, seq := none } ∧
    exec .reserved15 s = .next { s with status := .errPrecond, rval := 0#32, seq := none }

/-! ## The transfer primitives and the transport -/

/-- `SendCommand(b)` (R141): one `WRITE_BYTE` with prefix 0x00, handle and address of the block, byte image `[0x00,
b]`; `Ok` goes on and advances `SEQ_IDX` (R31, the spec's decision D26); `Error` raises `ERR_TRANSPORT`, which ends the
whole operation that was sending (R144); silence waits (R143; an empty list of answers as silence is the model's
choice, notes/assumptions/2 and 5). Nothing but `TRACE`, the answers and the position changes. -/
def Obligations.SendCommandIsOneWriteByte : Prop :=
  ∀ (s : State) (h : Handle) (b : Byte),
    (s.answers = [] → sendCommand h b s = .waiting s) ∧
    (∀ a rest, s.answers = a :: rest → a.error = false → ∃ t, sendCommand h b s = .done t ∧
      t = { s with seq := t.seq, trace := s.trace ++ [⟨.writeByte h s.devAddr 0x00#8 b, .ok⟩], answers := rest } ∧
      t.seqIdx = s.seqIdx.map (· + 1#5) ∧ t.fbPtr = s.fbPtr ∧ t.seqOp = s.seqOp) ∧
    (∀ a rest, s.answers = a :: rest → a.error = true → sendCommand h b s =
      .failed { s with trace := s.trace ++ [⟨.writeByte h s.devAddr 0x00#8 b, .error⟩], answers := rest }) ∧
    (∀ a rest cmds blocks onOk, s.handle = some h → s.answers = a :: rest → a.error = true →
      ∀ onError ∈ [State.transportFailed, State.initFailed], ∃ t, sendAll (b :: cmds) blocks onOk onError s = .next t ∧
        t.status = .errTransport ∧ t.rval = 0#32 ∧ t.busy = false ∧ t.answers = rest ∧
        t.trace = s.trace ++ [⟨.writeByte h s.devAddr 0x00#8 b, .error⟩]) ∧
    (Transaction.writeByte h s.devAddr 0x00#8 b).image = [0x00#8, b]

/-- `SendData(bs)` (R142): one `WRITE_BLOCK` with prefix 0x40, handle and address of the block, byte image `[0x40] ++
bs`; `Ok` goes on and advances `FB_PTR` (R31, the spec's decision D26); `Error` raises `ERR_TRANSPORT`, which ends the
whole operation that was sending (R144); silence waits (R143; an empty list of answers as silence is the model's
choice, notes/assumptions/2 and 5). Nothing but `TRACE`, the answers and the position changes. The block calls it with
1 to 16 bytes. -/
def Obligations.SendDataIsOneWriteBlock : Prop :=
  (∀ (s : State) (h : Handle) (bs : List Byte),
    (s.answers = [] → sendData h bs s = .waiting s) ∧
    (∀ a rest, s.answers = a :: rest → a.error = false → ∃ t, sendData h bs s = .done t ∧
      t = { s with seq := t.seq, trace := s.trace ++ [⟨.writeBlock h s.devAddr 0x40#8 bs, .ok⟩], answers := rest } ∧
      t.fbPtr = s.fbPtr.map (· + BitVec.ofNat 17 bs.length) ∧ t.seqIdx = s.seqIdx ∧ t.seqOp = s.seqOp) ∧
    (∀ a rest, s.answers = a :: rest → a.error = true → sendData h bs s =
      .failed { s with trace := s.trace ++ [⟨.writeBlock h s.devAddr 0x40#8 bs, .error⟩], answers := rest }) ∧
    (∀ a rest blocks onOk, s.handle = some h → s.answers = a :: rest → a.error = true →
      ∀ onError ∈ [State.transportFailed, State.initFailed], ∃ t, sendAll [] (bs :: blocks) onOk onError s = .next t ∧
        t.status = .errTransport ∧ t.rval = 0#32 ∧ t.busy = false ∧ t.answers = rest ∧
        t.trace = s.trace ++ [⟨.writeBlock h s.devAddr 0x40#8 bs, .error⟩]) ∧
    (Transaction.writeBlock h s.devAddr 0x40#8 bs).image = 0x40#8 :: bs) ∧
  (∀ (s : State) (ptr : Nat), ∀ bs ∈ s.dataBlocks ptr, 1 ≤ bs.length ∧ bs.length ≤ 16)

/-- The transport call (R143, R238): while the transport is silent a busy block stands exactly where it is and presents
one transaction (that such a step answers a next state, itself, is the model's choice, notes/assumptions/12); the first
answer to come is that transaction's, and the pair is what `TRACE` gains first. -/
def Obligations.BusyBlockWaitsOnItsPendingTransaction : Prop :=
  ∀ s : State, s.Inv → s.busy = true → s.resetLine = false →
    ∃ t, s.pendingTx = some t ∧ (s.answers = [] → step s = .next s) ∧
      ∀ a rest, s.answers = a :: rest → ∃ s' more, step s = .next s' ∧ s'.trace = s.trace ++ ⟨t, t.reply a⟩ :: more

/-- Operations that issue no transaction always complete, whatever the transport does (R238, R240). -/
def Obligations.OperationsThatSendNothingAlwaysComplete : Prop :=
  ∀ (s : State) (v : Byte) (off x y x0 y0 dx dy : Int) (on : Bool) (d p : Slot), s.Inv → s.busy = false →
    ∀ i ∈ [Instr.clear, .drawPixel x y on, .clearBlock x0 y0 dx dy, .writeRaw v off, .getPages, .scrollCfg d p, .release],
      ∃ t, exec i s = .next t ∧ t.busy = false ∧ t.trace = s.trace ∧ t.answers = s.answers

/-! ## INIT -/

/-- INIT's effect on `TRACE` is exactly these 24 command writes in this order (R168, and R165 for the rest of the next
state), from any lifecycle state that holds the bus. -/
def Obligations.InitSendsExactlyTheFixedSequence : Prop :=
  ∀ (s : State) (h : Handle) (as rest : List Answer), s.busy = false → s.lstate ≠ .uninitialized → s.handle = some h →
    s.answers = as ++ rest → allOk as → as.length = 24 →
    exec .init s =
      .next { s with
        lstate := .deviceInitialized, status := .ok, rval := 0#32, seq := none, answers := rest,
        trace := s.trace ++
          [0xAE#8, 0xD5#8, 0x80#8, 0xA8#8, 0x3F#8, 0xDA#8, 0x12#8, 0xD3#8, 0x00#8, 0x40#8, 0x8D#8, 0x14#8, 0x20#8,
           0x00#8, 0xA1#8, 0xC8#8, 0x81#8, 0x8F#8, 0xD9#8, 0xF1#8, 0xDB#8, 0x40#8, 0xA6#8, 0xAF#8].map
            fun b => ⟨.writeByte h s.devAddr 0x00#8 b, .ok⟩ }

/-- Failure inside INIT (R169; the fall back to `BusAcquired` is the spec's decision D17): the bytes before the failed one
were answered `Ok`, none after it is sent. -/
def Obligations.InitFailureFallsBackToBusAcquired : Prop :=
  ∀ (s : State) (h : Handle) (before after : List Byte) (b : Byte) (as rest : List Answer) (e : Answer),
    s.busy = false → s.lstate ≠ .uninitialized → s.handle = some h → initRom = before ++ b :: after →
    s.answers = as ++ e :: rest → allOk as → as.length = before.length → e.error = true →
    exec .init s =
      .next { s with
        lstate := .busAcquired, status := .errTransport, rval := 0#32, seq := none, answers := rest,
        trace := s.trace ++ okCommands h s.devAddr before ++ [⟨.writeByte h s.devAddr 0x00#8 b, .error⟩] }

/-! ## FLUSH -/

/-- The blocks of the data stream (R182): `ceil(N / 16)` of them, block `k` carries `FB[16k ..]`, 16 bytes or what is left,
never empty, and the payloads in order are `FB[0 .. N-1]`. -/
def Obligations.DataBlocksAreTheFramebuffer : Prop :=
  ∀ s : State,
    (s.dataBlocks 0).length = (s.size + 15) / 16 ∧ (s.dataBlocks 0).flatten = s.fbBytes ∧
    s.fbBytes.length = s.size ∧ (∀ i, i < s.size → s.fbBytes[i]? = some (s.fbRead i)) ∧
    ∀ k, k < (s.dataBlocks 0).length →
      (s.dataBlocks 0)[k]? = some (s.memRead (16 * k) (min 16 (s.size - 16 * k))) ∧
      1 ≤ min 16 (s.size - 16 * k) ∧ (k < s.size / 16 → min 16 (s.size - 16 * k) = 16) ∧
      (k = s.size / 16 → min 16 (s.size - 16 * k) = s.size % 16)

/-- A FLUSH in which every write was answered `Ok`: the six command bytes that set the windows, then the `N`
framebuffer bytes as data (R66), in blocks of 16 with a short last one (R182), each with prefix 0x40. The state it
leaves is R180; the byte layout of the windows is R181, the spec's decision D19, and `Displaying` its decision D10. -/
def Obligations.FlushSendsWindowsThenFramebuffer : Prop :=
  ∀ (s : State) (h : Handle) (as rest : List Answer), s.busy = false →
    s.lstate = .deviceInitialized ∨ s.lstate = .displaying → s.handle = some h →
    s.answers = as ++ rest → allOk as → as.length = 6 + (s.size + 15) / 16 →
    ∃ blocks : List (List Byte), blocks.flatten = s.fbBytes ∧ blocks.length = (s.size + 15) / 16 ∧
      (∀ k, k < blocks.length → blocks[k]? = some (s.memRead (16 * k) (min 16 (s.size - 16 * k))) ∧
        1 ≤ min 16 (s.size - 16 * k)) ∧
      exec .flush s =
        .next { s with
          lstate := .displaying, status := .ok, rval := 0#32, seq := none, answers := rest,
          trace := s.trace ++
            ([0x21#8, 0x00#8, BitVec.ofNat 8 (s.width.toNat - 1), 0x22#8, 0x00#8, BitVec.ofNat 8 (s.pages.toNat - 1)].map
              fun b => ⟨.writeByte h s.devAddr 0x00#8 b, .ok⟩) ++
            blocks.map fun bs => ⟨.writeBlock h s.devAddr 0x40#8 bs, .ok⟩ }

/-- Failure inside FLUSH and its refusal (R180, R183, R211; the spec's decisions D15, D17): `ERR_PRECOND` before a completed
INIT with nothing sent; `ERR_TRANSPORT` at the first `Error`, in either phase, with `LSTATE` and the framebuffer unchanged
and nothing sent after it. -/
def Obligations.FlushRefusedOrFailedKeepsTheState : Prop :=
  ∀ s : State, s.busy = false →
    (s.lstate = .uninitialized ∨ s.lstate = .busAcquired →
      exec .flush s = .next { s with status := .errPrecond, rval := 0#32, seq := none }) ∧
    (∀ (h : Handle) (before after : List Byte) (b : Byte) (as rest : List Answer) (e : Answer),
      s.lstate = .deviceInitialized ∨ s.lstate = .displaying → s.handle = some h →
      s.windowCmds = before ++ b :: after → s.answers = as ++ e :: rest → allOk as → as.length = before.length →
      e.error = true →
      exec .flush s =
        .next { s with
          status := .errTransport, rval := 0#32, seq := none, answers := rest,
          trace := s.trace ++ okCommands h s.devAddr before ++ [⟨.writeByte h s.devAddr 0x00#8 b, .error⟩] }) ∧
    (∀ (h : Handle) (before after : List (List Byte)) (b : List Byte) (as rest : List Answer) (e : Answer),
      s.lstate = .deviceInitialized ∨ s.lstate = .displaying → s.handle = some h →
      s.dataBlocks 0 = before ++ b :: after → s.answers = as ++ e :: rest → allOk as → as.length = 6 + before.length →
      e.error = true →
      exec .flush s =
        .next { s with
          status := .errTransport, rval := 0#32, seq := none, answers := rest,
          trace := s.trace ++ okCommands h s.devAddr s.windowCmds ++ okBlocks h s.devAddr before ++
            [⟨.writeBlock h s.devAddr 0x40#8 b, .error⟩] })

/-- CLEAR_FLUSH (R184, the spec's decisions D17, D18, D19): cleared and refused in `BusAcquired`; cleared and sent
where FLUSH is permitted, in the blocks of a FLUSH (R180, R182), every data byte 0x00; refused unchanged in
`Uninitialized`. At the first write answered `Error`, window byte or data block, it ends with `ERR_TRANSPORT`: the
framebuffer stays cleared, `LSTATE` unchanged, nothing sent after it (R183, R211). -/
def Obligations.ClearFlushClearsThenFlushes : Prop :=
  ∀ s : State, s.busy = false →
    (s.lstate = .uninitialized →
      exec .clearFlush s = .next { s with status := .errPrecond, rval := 0#32, seq := none }) ∧
    (s.lstate = .busAcquired →
      exec .clearFlush s = .next { s with fb := [], status := .errPrecond, rval := 0#32, seq := none }) ∧
    (∀ (h : Handle) (as rest : List Answer), s.lstate = .deviceInitialized ∨ s.lstate = .displaying →
      s.handle = some h → s.answers = as ++ rest → allOk as → as.length = 6 + (s.size + 15) / 16 →
      ∃ blocks : List (List Byte), blocks.flatten = List.replicate s.size 0x00#8 ∧
        blocks.length = (s.size + 15) / 16 ∧
        (∀ k, k < blocks.length → blocks[k]? = some (List.replicate (min 16 (s.size - 16 * k)) 0x00#8) ∧
          1 ≤ min 16 (s.size - 16 * k)) ∧
        exec .clearFlush s =
          .next { s with
            lstate := .displaying, fb := [], status := .ok, rval := 0#32, seq := none, answers := rest,
            trace := s.trace ++ okCommands h s.devAddr s.windowCmds ++ okBlocks h s.devAddr blocks }) ∧
    (∀ (h : Handle) (before after : List Byte) (b : Byte) (as rest : List Answer) (e : Answer),
      s.lstate = .deviceInitialized ∨ s.lstate = .displaying → s.handle = some h →
      s.windowCmds = before ++ b :: after → s.answers = as ++ e :: rest → allOk as → as.length = before.length →
      e.error = true →
      exec .clearFlush s =
        .next { s with
          fb := [], status := .errTransport, rval := 0#32, seq := none, answers := rest,
          trace := s.trace ++ okCommands h s.devAddr before ++ [⟨.writeByte h s.devAddr 0x00#8 b, .error⟩] }) ∧
    (∀ (h : Handle) (k : Nat) (as rest : List Answer) (e : Answer),
      s.lstate = .deviceInitialized ∨ s.lstate = .displaying → s.handle = some h →
      k < (s.size + 15) / 16 → s.answers = as ++ e :: rest → allOk as → as.length = 6 + k → e.error = true →
      exec .clearFlush s =
        .next { s with
          fb := [], status := .errTransport, rval := 0#32, seq := none, answers := rest,
          trace := s.trace ++ okCommands h s.devAddr s.windowCmds ++
            okBlocks h s.devAddr (List.replicate k (List.replicate 16 0x00#8)) ++
            [⟨.writeBlock h s.devAddr 0x40#8 (List.replicate (min 16 (s.size - 16 * k)) 0x00#8), .error⟩] })

/-! ## Single commands -/

/-- SET_START_LINE (R185; the truncation of the offset is the spec's decision D20): one command write of `0x40 | offset`,
which is `0x40 + offset` inside the caller's duty; nothing else changes, whether the write succeeds or fails. -/
def Obligations.SetStartLineSendsOneCommand : Prop :=
  ∀ (s : State) (offset : Byte), s.busy = false →
    (s.lstate = .uninitialized →
      exec (.setStartLine offset) s = .next { s with status := .errPrecond, rval := 0#32, seq := none }) ∧
    (∀ (h : Handle) (a : Answer) (rest : List Answer), s.lstate ≠ .uninitialized → s.handle = some h →
      s.answers = a :: rest →
      exec (.setStartLine offset) s =
        .next { s with
          status := if a.error then .errTransport else .ok, rval := 0#32, seq := none, answers := rest,
          trace := s.trace ++ [⟨.writeByte h s.devAddr 0x00#8 (0x40#8 ||| offset), if a.error then .error else .ok⟩] }) ∧
    (offset.toNat ≤ Config.maxStartLine → (0x40#8 ||| offset).toNat = 0x40 + offset.toNat)

/-- ACT_SCROLL and DEACT_SCROLL (R186, R187): one command write of the fixed byte; nothing else changes, whether the write
succeeds or fails; refused in `Uninitialized`. -/
def Obligations.ScrollSwitchesSendTheirCommand : Prop :=
  (∀ w : ReqWord, w.op = 7#4 → decode (.request w) = .ok .actScroll) ∧
  (∀ w : ReqWord, w.op = 8#4 → decode (.request w) = .ok .deactScroll) ∧
  ∀ s : State, s.busy = false →
    ∀ ib ∈ [(Instr.actScroll, 0x2F#8), (Instr.deactScroll, 0x2E#8)],
      (s.lstate = .uninitialized →
        exec ib.1 s = .next { s with status := .errPrecond, rval := 0#32, seq := none }) ∧
      (∀ (h : Handle) (a : Answer) (rest : List Answer), s.lstate ≠ .uninitialized → s.handle = some h →
        s.answers = a :: rest →
        exec ib.1 s =
          .next { s with
            status := if a.error then .errTransport else .ok, rval := 0#32, seq := none, answers := rest,
            trace := s.trace ++ [⟨.writeByte h s.devAddr 0x00#8 ib.2, if a.error then .error else .ok⟩] })

/-! ## Wire commands -/

/-- A wire command run by itself sends its bytes, one command write each, and changes nothing else (R92, R141; that it is an
operation with a response of its own is the model's choice, notes/assumptions/7). It covers the nineteen commands the block
sends. -/
def Obligations.WireCommandsSendTheirBytes : Prop :=
  ∀ (i : Instr) (s : State) (h : Handle) (as rest : List Answer), isSentCommand i = true → s.busy = false →
    s.lstate ≠ .uninitialized → s.handle = some h → s.answers = as ++ rest → allOk as →
    as.length = (encode i).wireBytes.length →
    exec i s =
      .next { s with
        status := .ok, rval := 0#32, seq := none, answers := rest,
        trace := s.trace ++ okCommands h s.devAddr (encode i).wireBytes }

/-- A wire command whose write is answered `Error` stops there with `ERR_TRANSPORT` (R144, R188). That it is an
operation with a response of its own is the model's choice, notes/assumptions/7. -/
def Obligations.WireCommandsStopAtTheFirstError : Prop :=
  ∀ (i : Instr) (s : State) (h : Handle) (before after : List Byte) (b : Byte) (as rest : List Answer) (e : Answer),
    isSentCommand i = true → s.busy = false → s.lstate ≠ .uninitialized → s.handle = some h →
    (encode i).wireBytes = before ++ b :: after → s.answers = as ++ e :: rest → allOk as → as.length = before.length →
    e.error = true →
    exec i s =
      .next { s with
        status := .errTransport, rval := 0#32, seq := none, answers := rest,
        trace := s.trace ++ okCommands h s.devAddr before ++ [⟨.writeByte h s.devAddr 0x00#8 b, .error⟩] }

/-- The eleven command names the block never sends and the four argument constants have no effect in the spec (R97,
R98, 93_implementation_defined.md U12): each is refused by its own name in every state (notes/assumptions/13). That the
two VCC flags carry the owner `chargePump` in their refusal is the model's choice (notes/assumptions/10). -/
def Obligations.NeverSentNamesAreRefused : Prop :=
  ∀ s : State,
    exec .setLowColumn s = .refused (.neverSent 0x00#8) ∧ exec .setHighColumn s = .refused (.neverSent 0x10#8) ∧
    exec .rightHorizontalScroll s = .refused (.neverSent 0x26#8) ∧
    exec .leftHorizontalScroll s = .refused (.neverSent 0x27#8) ∧
    exec .verticalAndRightHorizontalScroll s = .refused (.neverSent 0x29#8) ∧
    exec .verticalAndLeftHorizontalScroll s = .refused (.neverSent 0x2A#8) ∧
    exec .setVerticalScrollArea s = .refused (.neverSent 0xA3#8) ∧
    exec .displayAllOnResume s = .refused (.neverSent 0xA4#8) ∧ exec .displayAllOn s = .refused (.neverSent 0xA5#8) ∧
    exec .invertDisplay s = .refused (.neverSent 0xA7#8) ∧ exec .comScanInc s = .refused (.neverSent 0xC0#8) ∧
    exec .memoryModeVert s = .refused (.argumentConstant .memoryMode 0x01#8) ∧
    exec .memoryModePage s = .refused (.argumentConstant .memoryMode 0x02#8) ∧
    exec .externalVcc s = .refused (.argumentConstant .chargePump 0x01#8) ∧
    exec .switchCapVcc s = .refused (.argumentConstant .chargePump 0x02#8)

/-! ## Rules about the whole machine -/

/-- In `Uninitialized` every request but CONSTRUCT and RELEASE ends with `ERR_PRECOND`, changes nothing and sends
nothing (R29, R120, R140; the spec's decisions D14, D22). That a wire command run by itself is an operation and is
refused in the same way is the model's choice (notes/assumptions/7). -/
def Obligations.UninitializedRefusesEverythingElse : Prop :=
  ∀ (i : Instr) (s : State), s.busy = false → s.lstate = .uninitialized →
    isRequest i = true ∨ isSentCommand i = true → i ≠ .release → (∀ b a h w, i ≠ .construct b a h w) →
    exec i s = .next { s with status := .errPrecond, rval := 0#32, seq := none }

/-- A busy block accepts nothing (R30, the spec's decision D26): a step takes no code. That running a request at a busy
block answers a next state, unchanged, is the model's choice of form (notes/assumptions/11), and so is the same of a
wire command run by itself (notes/assumptions/7 and 11). -/
def Obligations.BusyBlockAcceptsNothing : Prop :=
  ∀ s : State, s.busy = true →
    (∀ i : Instr, isRequest i = true ∨ isSentCommand i = true → exec i s = .next s) ∧
    (∀ t : State, step s = .next t → t.inbox = s.inbox ∧ t.preload = s.preload)

/-- What an error leaves behind (R201, R210, R211; the `LSTATE` column is the spec's decision D17, the framebuffer of
CLEAR_FLUSH D18): `RVAL = 0`, every register as before, the framebuffer as before but for a CLEAR_FLUSH in a
constructed block, which leaves it cleared, `LSTATE` as before but for an INIT whose write failed; `TRACE` gained
nothing, or a run of transactions of which exactly the last failed. Of a wire command run by itself it is the model's
choice (notes/assumptions/7). -/
def Obligations.ErrorsLeaveTheBlockAsItWas : Prop :=
  ∀ (i : Instr) (s t : State), s.busy = false → exec i s = .next t → t.busy = false → t.status ≠ .ok →
    t.rval = 0#32 ∧ t.handle = s.handle ∧ t.devAddr = s.devAddr ∧ t.width = s.width ∧ t.height = s.height ∧
    t.pages = s.pages ∧ t.cfg = s.cfg ∧ t.inbox = s.inbox ∧ t.resetLine = s.resetLine ∧ t.preload = s.preload ∧
    t.fb = (if i = .clearFlush ∧ s.lstate ≠ .uninitialized then [] else s.fb) ∧
    (t.lstate = s.lstate ∨ i = .init ∧ t.status = .errTransport ∧ t.lstate = .busAcquired) ∧
    (t.status = .errPrecond ∧ t.trace = s.trace ∨
      t.status ≠ .errPrecond ∧ ∃ done last, t.trace = s.trace ++ done ++ [last] ∧ last.reply = .error ∧
        ∀ e ∈ done, e.reply = .ok)

/-- Which status each operation can end with (R87, R200; the numbers and classes are the spec's decision D5): only
CONSTRUCT ends with `ERR_RESOURCE`; of the requests only the six that send with `ERR_TRANSPORT`; RELEASE always with
`OK`; `RVAL` is 0 but for a GET_PAGES that ends with `OK` (R86). That a wire command run by itself can end with
`ERR_TRANSPORT` too is the model's choice (notes/assumptions/7). -/
def Obligations.StatusesByOperation : Prop :=
  ∀ (i : Instr) (s t : State), s.busy = false → exec i s = .next t → t.busy = false →
    (t.status = .errResource → ∃ b a h w, i = .construct b a h w) ∧
    (t.status = .errTransport → i = .init ∨ i = .flush ∨ i = .clearFlush ∨ (∃ o, i = .setStartLine o) ∨ i = .actScroll ∨
      i = .deactScroll ∨ isSentCommand i = true) ∧
    (i = .release → t.status = .ok) ∧
    (t.rval ≠ 0#32 → i = .getPages ∧ t.status = .ok)

/-- Who writes what (the table of R20; R23, R24, R28, R58, R240): the framebuffer, the configuration registers,
`LSTATE`, and `TRACE` are changed by no instruction but those the rules name. Of a wire command run by itself it is the
model's choice (notes/assumptions/7). -/
def Obligations.OnlyTheNamedOperationsWriteEachItem : Prop :=
  ∀ (i : Instr) (s t : State), s.busy = false → exec i s = .next t →
    t.cfg = s.cfg ∧ t.inbox = s.inbox ∧ t.resetLine = s.resetLine ∧ t.preload = s.preload ∧
    ((∀ b a h w, i ≠ .construct b a h w) → i ≠ .release →
      t.handle = s.handle ∧ t.devAddr = s.devAddr ∧ t.width = s.width ∧ t.height = s.height ∧ t.pages = s.pages ∧
      (i ≠ .clear → i ≠ .clearFlush → (∀ x y on, i ≠ .drawPixel x y on) → (∀ x y dx dy, i ≠ .clearBlock x y dx dy) →
        (∀ v o, i ≠ .writeRaw v o) → t.fb = s.fb) ∧
      (i ≠ .init → i ≠ .flush → i ≠ .clearFlush → t.lstate = s.lstate)) ∧
    (i ∈ [Instr.clear, .getPages, .release, .reserved14, .reserved15] ∨ (∃ x y on, i = .drawPixel x y on) ∨
      (∃ x y dx dy, i = .clearBlock x y dx dy) ∨ (∃ v o, i = .writeRaw v o) ∨ (∃ d v, i = .scrollCfg d v) →
      t.trace = s.trace ∧ t.answers = s.answers ∧ t.busy = false)

/-- The transitions of `LSTATE` (R28; the arcs beyond the document's three arrows are the spec's decisions D10, D16,
D17, D24): from `Uninitialized` only to `BusAcquired`; never from `BusAcquired` to `Displaying`. That a wire command
run by itself makes none is the model's choice (notes/assumptions/7). -/
def Obligations.LifecycleTransitions : Prop :=
  ∀ s t : State, s.Inv → step s = .next t →
    (s.lstate = .uninitialized → t.lstate = .uninitialized ∨ t.lstate = .busAcquired) ∧
    (s.lstate = .busAcquired → t.lstate ≠ .displaying) ∧
    (t.lstate = .displaying → s.lstate = .deviceInitialized ∨ s.lstate = .displaying)

/-- While an operation other than CONSTRUCT is in progress a step changes neither the framebuffer nor the registers the
operation reads, so a FLUSH streams one snapshot (R62, R235, which the spec infers from R60 and R30). That `STATUS` and
`RVAL` still hold the response before while the operation goes on is the model's inference from R32
(notes/assumptions/17). -/
def Obligations.NothingChangesUnderAnOperationInProgress : Prop :=
  ∀ (s t : State) (p : Position), s.seq = some p → (∀ b a h w, p.job ≠ .construct b a h w) → step s = .next t →
    t.fb = s.fb ∧ t.handle = s.handle ∧ t.devAddr = s.devAddr ∧ t.width = s.width ∧ t.height = s.height ∧
    t.pages = s.pages ∧ (t.busy = true → t.lstate = s.lstate ∧ t.seqOp = s.seqOp ∧ t.status = s.status ∧ t.rval = s.rval)

/-- Transactions are issued in order, each only after the one before was answered `Ok` (R61): a step appends to `TRACE` as
many entries as it takes answers; every entry but the last was answered without error, the last too while the operation
goes on; an `Error` ends the operation with an error status; every write carries the block's own handle and address. -/
def Obligations.TransactionsAreIssuedInOrder : Prop :=
  ∀ s t : State, s.resetLine = false → step s = .next t →
    ∃ (new : List TraceEntry) (taken : List Answer),
      t.trace = s.trace ++ new ∧ s.answers = taken ++ t.answers ∧ taken.length = new.length ∧
      (∀ e ∈ new.dropLast, e.reply ≠ .error) ∧ (t.busy = true → ∀ e ∈ new, e.reply ≠ .error) ∧
      ((∃ e ∈ new, e.reply = .error) → t.busy = false ∧ (t.status = .errTransport ∨ t.status = .errResource)) ∧
      ∀ e ∈ new, e.addressed s.handle s.devAddr = true

/-- Every transaction in `TRACE` has a shape the block issues (R88, R142, R182): command writes with prefix 0x00, data
writes with prefix 0x40 and 1 to 16 bytes, answers of the transaction's kind. Every step keeps it. -/
def Obligations.StepKeepsTransactionsWellFormed : Prop :=
  ∀ s t : State, (∀ e ∈ s.trace, e.wellFormed = true) → step s = .next t → ∀ e ∈ t.trace, e.wellFormed = true

/-- Every step keeps the invariant: R27, the framebuffer in canonical form inside `0 .. N-1`, a handle exactly while
constructed, a legal sequencer position. -/
def Obligations.StepKeepsTheInvariant : Prop :=
  ∀ s t : State, s.Inv → step s = .next t → t.Inv

/-- From every state that meets the invariant, a step keeps: wherever FLUSH is permitted, the device has been sent the whole
initialization sequence, each byte answered `Ok`, at the handle and address now in use (R21, R28, R232, hazards H1 and H2 of
R234). That a step keeps the invariant itself is `StepKeepsTheInvariant`. -/
def Obligations.FlushIsOnlyPermittedAfterTheWholeInitSequence : Prop :=
  ∀ s t : State, s.Inv → s.InitHistoryInv → step s = .next t → t.InitHistoryInv

/-- Any request, with any operand values, is run in any lifecycle state (R241): from a state that meets the invariant,
a step with no preloaded code and the reset line low never faults and never refuses; and if the transport has answers
enough for the longest operation, the 6 + 4096 transactions of a FLUSH of the largest framebuffer (R240, the spec's
decision D6), the block is idle after it, so the operation has completed (R238). -/
def Obligations.EveryRequestRunsAndCompletesOnceAnswered : Prop :=
  ∀ s : State, s.Inv → s.resetLine = false → s.preload = none →
    ∃ t, step s = .next t ∧ (4102 ≤ s.answers.length → t.busy = false)

/-- The handle is opaque (R22, the spec's decision D8): renaming every handle in a state renames the handles in the next
state and changes nothing else. -/
def Obligations.HandlesAreNeverInspected : Prop :=
  ∀ (f : Handle → Handle) (s : State), step (s.mapHandle f) = mapResult (State.mapHandle f) (step s)

/-- An operation as one step, and as many steps with the transport answering in between, agree (R31, the spec's decision
D26; R60): if the answers come in two parts, running with the first part and going on with the second leaves what running
with both leaves. -/
def Obligations.AtomicAndStepwiseReadingsAgree : Prop :=
  ∀ (i : Instr) (s : State) (as bs : List Answer), s.Inv → s.busy = false → s.answers = as →
    exec i { s with answers := as ++ bs } =
      match exec i s with
      | .next t =>
        if t.busy then resume { t with answers := t.answers ++ bs } else .next { t with answers := t.answers ++ bs }
      | .fault f => .fault f
      | .refused r => .refused r

/-- What the block presents to the transport (R88, R89, R91): an `OPEN` in CONSTRUCT only; a command write with the
block's handle and address, prefix 0x00, one byte; or a data write with the block's handle and address, prefix 0x40,
and the next 1 to 16 framebuffer bytes, byte `i` in bits `[8i+7 : 8i]`. The binding to ports is the spec's decision
D36, the kind codes D25; that the bits above a one-byte payload are 0 is the model's choice (notes/assumptions/22). -/
def Obligations.PresentedTransactionIsTheBlocksOwn : Prop :=
  ∀ (s : State) (t : Transaction), s.Inv → s.pendingTx = some t →
    (∃ busId : Int, t = .openBus busId ∧ s.seqOp = some 0#4) ∨
    (∃ b : Byte, t.kind = 1#2 ∧ t.portHandle = s.handle ∧ t.portAddr = some s.devAddr ∧ t.portCtrl = some 0x00#8 ∧
      t.portLen = some 1#5 ∧ t.portData = some (b.setWidth 128) ∧ t.image = [0x00#8, b]) ∨
    (∃ (p : BitVec 17) (n : BitVec 5) (d : BitVec 128), t.kind = 2#2 ∧ t.portHandle = s.handle ∧
      t.portAddr = some s.devAddr ∧ t.portCtrl = some 0x40#8 ∧ s.fbPtr = some p ∧ t.portLen = some n ∧
      n.toNat = min 16 (s.size - p.toNat) ∧ 1 ≤ n.toNat ∧ t.portData = some d ∧
      (∀ i, i < n.toNat → d.extractLsb' (8 * i) 8 = s.fbRead (p.toNat + i)) ∧
      t.image = 0x40#8 :: s.memRead p.toNat n.toNat)
end

