-- ==== Sys2Proof/Laws/Encoding.lean ====
section
/-! SUPPORT. The small lemmas of the request word and its slots: each field of a packed word reads back, a signed slot holds
its integer, a narrow operand reads back from its slot (30_encoding.md R80 to R83). -/

namespace Sys2Proof

section
variable (op : BitVec 4) (a b c d : Slot)

@[simp] theorem ReqWord.op_pack : (ReqWord.pack op a b c d).op = op := by
  apply BitVec.eq_of_getLsbD_eq
  intro i hi
  simp only [ReqWord.pack, ReqWord.op, BitVec.getLsbD_extractLsb', BitVec.getLsbD_append]
  simp [hi]

@[simp] theorem ReqWord.slotA_pack : (ReqWord.pack op a b c d).slotA = a := by
  apply BitVec.eq_of_getLsbD_eq
  intro i hi
  have h1 : ¬ (4 + i < 4) := by omega
  have h2 : 4 + i - 4 = i := by omega
  simp only [ReqWord.pack, ReqWord.slotA, BitVec.getLsbD_extractLsb', BitVec.getLsbD_append]
  simp [hi, h1, h2]

@[simp] theorem ReqWord.slotB_pack : (ReqWord.pack op a b c d).slotB = b := by
  apply BitVec.eq_of_getLsbD_eq
  intro i hi
  have h1 : ¬ (36 + i < 4) := by omega
  have h2 : ¬ (36 + i - 4 < 32) := by omega
  have h3 : 36 + i - 4 - 32 = i := by omega
  simp only [ReqWord.pack, ReqWord.slotB, BitVec.getLsbD_extractLsb', BitVec.getLsbD_append]
  simp [hi, h1, h2, h3]

@[simp] theorem ReqWord.slotC_pack : (ReqWord.pack op a b c d).slotC = c := by
  apply BitVec.eq_of_getLsbD_eq
  intro i hi
  have h1 : ¬ (68 + i < 4) := by omega
  have h2 : ¬ (68 + i - 4 < 32) := by omega
  have h3 : ¬ (68 + i - 4 - 32 < 32) := by omega
  have h4 : 68 + i - 4 - 32 - 32 = i := by omega
  simp only [ReqWord.pack, ReqWord.slotC, BitVec.getLsbD_extractLsb', BitVec.getLsbD_append]
  simp [hi, h1, h2, h3, h4]

@[simp] theorem ReqWord.slotD_pack : (ReqWord.pack op a b c d).slotD = d := by
  apply BitVec.eq_of_getLsbD_eq
  intro i hi
  have h1 : ¬ (100 + i < 4) := by omega
  have h2 : ¬ (100 + i - 4 < 32) := by omega
  have h3 : ¬ (100 + i - 4 - 32 < 32) := by omega
  have h4 : ¬ (100 + i - 4 - 32 - 32 < 32) := by omega
  have h5 : 100 + i - 4 - 32 - 32 - 32 = i := by omega
  simp only [ReqWord.pack, ReqWord.slotD, BitVec.getLsbD_extractLsb', BitVec.getLsbD_append]
  simp [hi, h1, h2, h3, h4, h5]
end

/-- The slot of an integer that fits reads back as that integer (R12, R81). -/
theorem sint_slotOfInt {v : Int} (h : fitsSlot v = true) : sint (slotOfInt v) = v := by
  simp only [fitsSlot, decide_eq_true_eq] at h
  simp only [sint, slotOfInt, BitVec.toNat_ofInt]
  split <;> omega

/-- Every slot holds an integer that fits (R12). -/
theorem fitsSlot_sint (s : Slot) : fitsSlot (sint s) = true := by
  have := s.isLt
  unfold sint
  split <;> simp only [fitsSlot, decide_eq_true_eq] <;> omega

/-- An 8-bit operand reads back from the low bits of its slot (R83). -/
@[simp] theorem low8_setWidth (v : Byte) : (BitVec.setWidth 32 v).extractLsb' 0 8 = v := by
  apply BitVec.eq_of_getLsbD_eq
  intro i hi
  simp [hi]
  omega

/-- A 7-bit operand reads back from the low bits of its slot (R83). -/
@[simp] theorem low7_setWidth (v : BitVec 7) : (BitVec.setWidth 32 v).extractLsb' 0 7 = v := by
  apply BitVec.eq_of_getLsbD_eq
  intro i hi
  simp [hi]
  omega

end Sys2Proof
end

