-- ==== Sys2Proof/Laws/State.lean ====
section
/-! SUPPORT. One lemma per field per named update of State, true by rfl, so that no later proof unfolds a record update. -/

namespace Sys2Proof.Machine

variable (s : State)

/-! ## withFb -/

@[simp] theorem State.withFb_lstate (m : Memory) : (s.withFb m).lstate = s.lstate := rfl
@[simp] theorem State.withFb_handle (m : Memory) : (s.withFb m).handle = s.handle := rfl
@[simp] theorem State.withFb_devAddr (m : Memory) : (s.withFb m).devAddr = s.devAddr := rfl
@[simp] theorem State.withFb_width (m : Memory) : (s.withFb m).width = s.width := rfl
@[simp] theorem State.withFb_height (m : Memory) : (s.withFb m).height = s.height := rfl
@[simp] theorem State.withFb_pages (m : Memory) : (s.withFb m).pages = s.pages := rfl
@[simp] theorem State.withFb_fb (m : Memory) : (s.withFb m).fb = m := rfl
@[simp] theorem State.withFb_seq (m : Memory) : (s.withFb m).seq = s.seq := rfl
@[simp] theorem State.withFb_status (m : Memory) : (s.withFb m).status = s.status := rfl
@[simp] theorem State.withFb_rval (m : Memory) : (s.withFb m).rval = s.rval := rfl
@[simp] theorem State.withFb_trace (m : Memory) : (s.withFb m).trace = s.trace := rfl
@[simp] theorem State.withFb_cfg (m : Memory) : (s.withFb m).cfg = s.cfg := rfl
@[simp] theorem State.withFb_inbox (m : Memory) : (s.withFb m).inbox = s.inbox := rfl
@[simp] theorem State.withFb_answers (m : Memory) : (s.withFb m).answers = s.answers := rfl
@[simp] theorem State.withFb_resetLine (m : Memory) : (s.withFb m).resetLine = s.resetLine := rfl
@[simp] theorem State.withFb_preload (m : Memory) : (s.withFb m).preload = s.preload := rfl

/-! ## respond -/

@[simp] theorem State.respond_lstate (st : Status) (v : Slot) : (s.respond st v).lstate = s.lstate := rfl
@[simp] theorem State.respond_handle (st : Status) (v : Slot) : (s.respond st v).handle = s.handle := rfl
@[simp] theorem State.respond_devAddr (st : Status) (v : Slot) : (s.respond st v).devAddr = s.devAddr := rfl
@[simp] theorem State.respond_width (st : Status) (v : Slot) : (s.respond st v).width = s.width := rfl
@[simp] theorem State.respond_height (st : Status) (v : Slot) : (s.respond st v).height = s.height := rfl
@[simp] theorem State.respond_pages (st : Status) (v : Slot) : (s.respond st v).pages = s.pages := rfl
@[simp] theorem State.respond_fb (st : Status) (v : Slot) : (s.respond st v).fb = s.fb := rfl
@[simp] theorem State.respond_seq (st : Status) (v : Slot) : (s.respond st v).seq = none := rfl
@[simp] theorem State.respond_status (st : Status) (v : Slot) : (s.respond st v).status = st := rfl
@[simp] theorem State.respond_rval (st : Status) (v : Slot) : (s.respond st v).rval = v := rfl
@[simp] theorem State.respond_trace (st : Status) (v : Slot) : (s.respond st v).trace = s.trace := rfl
@[simp] theorem State.respond_cfg (st : Status) (v : Slot) : (s.respond st v).cfg = s.cfg := rfl
@[simp] theorem State.respond_inbox (st : Status) (v : Slot) : (s.respond st v).inbox = s.inbox := rfl
@[simp] theorem State.respond_answers (st : Status) (v : Slot) : (s.respond st v).answers = s.answers := rfl
@[simp] theorem State.respond_resetLine (st : Status) (v : Slot) : (s.respond st v).resetLine = s.resetLine := rfl
@[simp] theorem State.respond_preload (st : Status) (v : Slot) : (s.respond st v).preload = s.preload := rfl

/-! ## setLState -/

@[simp] theorem State.setLState_lstate (l : LState) : (s.setLState l).lstate = l := rfl
@[simp] theorem State.setLState_handle (l : LState) : (s.setLState l).handle = s.handle := rfl
@[simp] theorem State.setLState_devAddr (l : LState) : (s.setLState l).devAddr = s.devAddr := rfl
@[simp] theorem State.setLState_width (l : LState) : (s.setLState l).width = s.width := rfl
@[simp] theorem State.setLState_height (l : LState) : (s.setLState l).height = s.height := rfl
@[simp] theorem State.setLState_pages (l : LState) : (s.setLState l).pages = s.pages := rfl
@[simp] theorem State.setLState_fb (l : LState) : (s.setLState l).fb = s.fb := rfl
@[simp] theorem State.setLState_seq (l : LState) : (s.setLState l).seq = s.seq := rfl
@[simp] theorem State.setLState_status (l : LState) : (s.setLState l).status = s.status := rfl
@[simp] theorem State.setLState_rval (l : LState) : (s.setLState l).rval = s.rval := rfl
@[simp] theorem State.setLState_trace (l : LState) : (s.setLState l).trace = s.trace := rfl
@[simp] theorem State.setLState_cfg (l : LState) : (s.setLState l).cfg = s.cfg := rfl
@[simp] theorem State.setLState_inbox (l : LState) : (s.setLState l).inbox = s.inbox := rfl
@[simp] theorem State.setLState_answers (l : LState) : (s.setLState l).answers = s.answers := rfl
@[simp] theorem State.setLState_resetLine (l : LState) : (s.setLState l).resetLine = s.resetLine := rfl
@[simp] theorem State.setLState_preload (l : LState) : (s.setLState l).preload = s.preload := rfl

/-! ## constructAs -/

@[simp] theorem State.constructAs_lstate (h : Handle) (addr : BitVec 7) (height width : Int) : (s.constructAs h addr height width).lstate = .busAcquired := rfl
@[simp] theorem State.constructAs_handle (h : Handle) (addr : BitVec 7) (height width : Int) : (s.constructAs h addr height width).handle = some h := rfl
@[simp] theorem State.constructAs_devAddr (h : Handle) (addr : BitVec 7) (height width : Int) : (s.constructAs h addr height width).devAddr = addr := rfl
@[simp] theorem State.constructAs_width (h : Handle) (addr : BitVec 7) (height width : Int) : (s.constructAs h addr height width).width = BitVec.ofInt 9 width := rfl
@[simp] theorem State.constructAs_height (h : Handle) (addr : BitVec 7) (height width : Int) : (s.constructAs h addr height width).height = BitVec.ofInt 12 height := rfl
@[simp] theorem State.constructAs_pages (h : Handle) (addr : BitVec 7) (height width : Int) : (s.constructAs h addr height width).pages = BitVec.ofInt 9 (height / 8) := rfl
@[simp] theorem State.constructAs_fb (h : Handle) (addr : BitVec 7) (height width : Int) : (s.constructAs h addr height width).fb = [] := rfl
@[simp] theorem State.constructAs_seq (h : Handle) (addr : BitVec 7) (height width : Int) : (s.constructAs h addr height width).seq = s.seq := rfl
@[simp] theorem State.constructAs_status (h : Handle) (addr : BitVec 7) (height width : Int) : (s.constructAs h addr height width).status = s.status := rfl
@[simp] theorem State.constructAs_rval (h : Handle) (addr : BitVec 7) (height width : Int) : (s.constructAs h addr height width).rval = s.rval := rfl
@[simp] theorem State.constructAs_trace (h : Handle) (addr : BitVec 7) (height width : Int) : (s.constructAs h addr height width).trace = s.trace := rfl
@[simp] theorem State.constructAs_cfg (h : Handle) (addr : BitVec 7) (height width : Int) : (s.constructAs h addr height width).cfg = s.cfg := rfl
@[simp] theorem State.constructAs_inbox (h : Handle) (addr : BitVec 7) (height width : Int) : (s.constructAs h addr height width).inbox = s.inbox := rfl
@[simp] theorem State.constructAs_answers (h : Handle) (addr : BitVec 7) (height width : Int) : (s.constructAs h addr height width).answers = s.answers := rfl
@[simp] theorem State.constructAs_resetLine (h : Handle) (addr : BitVec 7) (height width : Int) : (s.constructAs h addr height width).resetLine = s.resetLine := rfl
@[simp] theorem State.constructAs_preload (h : Handle) (addr : BitVec 7) (height width : Int) : (s.constructAs h addr height width).preload = s.preload := rfl

/-! ## released -/

@[simp] theorem State.released_lstate : (s.released).lstate = .uninitialized := rfl
@[simp] theorem State.released_handle : (s.released).handle = none := rfl
@[simp] theorem State.released_devAddr : (s.released).devAddr = Config.defaultAddr := rfl
@[simp] theorem State.released_width : (s.released).width = 0#9 := rfl
@[simp] theorem State.released_height : (s.released).height = 0#12 := rfl
@[simp] theorem State.released_pages : (s.released).pages = 0#9 := rfl
@[simp] theorem State.released_fb : (s.released).fb = [] := rfl
@[simp] theorem State.released_seq : (s.released).seq = s.seq := rfl
@[simp] theorem State.released_status : (s.released).status = s.status := rfl
@[simp] theorem State.released_rval : (s.released).rval = s.rval := rfl
@[simp] theorem State.released_trace : (s.released).trace = s.trace := rfl
@[simp] theorem State.released_cfg : (s.released).cfg = s.cfg := rfl
@[simp] theorem State.released_inbox : (s.released).inbox = s.inbox := rfl
@[simp] theorem State.released_answers : (s.released).answers = s.answers := rfl
@[simp] theorem State.released_resetLine : (s.released).resetLine = s.resetLine := rfl
@[simp] theorem State.released_preload : (s.released).preload = s.preload := rfl

/-! ## logged -/

@[simp] theorem State.logged_lstate (t : Transaction) (a : Answer) (rest : List Answer) : (s.logged t a rest).lstate = s.lstate := rfl
@[simp] theorem State.logged_handle (t : Transaction) (a : Answer) (rest : List Answer) : (s.logged t a rest).handle = s.handle := rfl
@[simp] theorem State.logged_devAddr (t : Transaction) (a : Answer) (rest : List Answer) : (s.logged t a rest).devAddr = s.devAddr := rfl
@[simp] theorem State.logged_width (t : Transaction) (a : Answer) (rest : List Answer) : (s.logged t a rest).width = s.width := rfl
@[simp] theorem State.logged_height (t : Transaction) (a : Answer) (rest : List Answer) : (s.logged t a rest).height = s.height := rfl
@[simp] theorem State.logged_pages (t : Transaction) (a : Answer) (rest : List Answer) : (s.logged t a rest).pages = s.pages := rfl
@[simp] theorem State.logged_fb (t : Transaction) (a : Answer) (rest : List Answer) : (s.logged t a rest).fb = s.fb := rfl
@[simp] theorem State.logged_seq (t : Transaction) (a : Answer) (rest : List Answer) : (s.logged t a rest).seq = s.seq := rfl
@[simp] theorem State.logged_status (t : Transaction) (a : Answer) (rest : List Answer) : (s.logged t a rest).status = s.status := rfl
@[simp] theorem State.logged_rval (t : Transaction) (a : Answer) (rest : List Answer) : (s.logged t a rest).rval = s.rval := rfl
@[simp] theorem State.logged_trace (t : Transaction) (a : Answer) (rest : List Answer) : (s.logged t a rest).trace = s.trace ++ [⟨t, t.reply a⟩] := rfl
@[simp] theorem State.logged_cfg (t : Transaction) (a : Answer) (rest : List Answer) : (s.logged t a rest).cfg = s.cfg := rfl
@[simp] theorem State.logged_inbox (t : Transaction) (a : Answer) (rest : List Answer) : (s.logged t a rest).inbox = s.inbox := rfl
@[simp] theorem State.logged_answers (t : Transaction) (a : Answer) (rest : List Answer) : (s.logged t a rest).answers = rest := rfl
@[simp] theorem State.logged_resetLine (t : Transaction) (a : Answer) (rest : List Answer) : (s.logged t a rest).resetLine = s.resetLine := rfl
@[simp] theorem State.logged_preload (t : Transaction) (a : Answer) (rest : List Answer) : (s.logged t a rest).preload = s.preload := rfl

/-! ## advanceIdx -/

@[simp] theorem State.advanceIdx_lstate : (s.advanceIdx).lstate = s.lstate := rfl
@[simp] theorem State.advanceIdx_handle : (s.advanceIdx).handle = s.handle := rfl
@[simp] theorem State.advanceIdx_devAddr : (s.advanceIdx).devAddr = s.devAddr := rfl
@[simp] theorem State.advanceIdx_width : (s.advanceIdx).width = s.width := rfl
@[simp] theorem State.advanceIdx_height : (s.advanceIdx).height = s.height := rfl
@[simp] theorem State.advanceIdx_pages : (s.advanceIdx).pages = s.pages := rfl
@[simp] theorem State.advanceIdx_fb : (s.advanceIdx).fb = s.fb := rfl
@[simp] theorem State.advanceIdx_seq : (s.advanceIdx).seq = s.seq.map fun p => { p with idx := p.idx + 1#5 } := rfl
@[simp] theorem State.advanceIdx_status : (s.advanceIdx).status = s.status := rfl
@[simp] theorem State.advanceIdx_rval : (s.advanceIdx).rval = s.rval := rfl
@[simp] theorem State.advanceIdx_trace : (s.advanceIdx).trace = s.trace := rfl
@[simp] theorem State.advanceIdx_cfg : (s.advanceIdx).cfg = s.cfg := rfl
@[simp] theorem State.advanceIdx_inbox : (s.advanceIdx).inbox = s.inbox := rfl
@[simp] theorem State.advanceIdx_answers : (s.advanceIdx).answers = s.answers := rfl
@[simp] theorem State.advanceIdx_resetLine : (s.advanceIdx).resetLine = s.resetLine := rfl
@[simp] theorem State.advanceIdx_preload : (s.advanceIdx).preload = s.preload := rfl

/-! ## advancePtr -/

@[simp] theorem State.advancePtr_lstate (n : Nat) : (s.advancePtr n).lstate = s.lstate := rfl
@[simp] theorem State.advancePtr_handle (n : Nat) : (s.advancePtr n).handle = s.handle := rfl
@[simp] theorem State.advancePtr_devAddr (n : Nat) : (s.advancePtr n).devAddr = s.devAddr := rfl
@[simp] theorem State.advancePtr_width (n : Nat) : (s.advancePtr n).width = s.width := rfl
@[simp] theorem State.advancePtr_height (n : Nat) : (s.advancePtr n).height = s.height := rfl
@[simp] theorem State.advancePtr_pages (n : Nat) : (s.advancePtr n).pages = s.pages := rfl
@[simp] theorem State.advancePtr_fb (n : Nat) : (s.advancePtr n).fb = s.fb := rfl
@[simp] theorem State.advancePtr_seq (n : Nat) : (s.advancePtr n).seq = s.seq.map fun p => { p with ptr := p.ptr + BitVec.ofNat 17 n } := rfl
@[simp] theorem State.advancePtr_status (n : Nat) : (s.advancePtr n).status = s.status := rfl
@[simp] theorem State.advancePtr_rval (n : Nat) : (s.advancePtr n).rval = s.rval := rfl
@[simp] theorem State.advancePtr_trace (n : Nat) : (s.advancePtr n).trace = s.trace := rfl
@[simp] theorem State.advancePtr_cfg (n : Nat) : (s.advancePtr n).cfg = s.cfg := rfl
@[simp] theorem State.advancePtr_inbox (n : Nat) : (s.advancePtr n).inbox = s.inbox := rfl
@[simp] theorem State.advancePtr_answers (n : Nat) : (s.advancePtr n).answers = s.answers := rfl
@[simp] theorem State.advancePtr_resetLine (n : Nat) : (s.advancePtr n).resetLine = s.resetLine := rfl
@[simp] theorem State.advancePtr_preload (n : Nat) : (s.advancePtr n).preload = s.preload := rfl

/-! ## accepted -/

@[simp] theorem State.accepted_lstate (job : Job) : (s.accepted job).lstate = s.lstate := rfl
@[simp] theorem State.accepted_handle (job : Job) : (s.accepted job).handle = s.handle := rfl
@[simp] theorem State.accepted_devAddr (job : Job) : (s.accepted job).devAddr = s.devAddr := rfl
@[simp] theorem State.accepted_width (job : Job) : (s.accepted job).width = s.width := rfl
@[simp] theorem State.accepted_height (job : Job) : (s.accepted job).height = s.height := rfl
@[simp] theorem State.accepted_pages (job : Job) : (s.accepted job).pages = s.pages := rfl
@[simp] theorem State.accepted_fb (job : Job) : (s.accepted job).fb = s.fb := rfl
@[simp] theorem State.accepted_seq (job : Job) : (s.accepted job).seq = some ⟨job, 0#5, 0#17⟩ := rfl
@[simp] theorem State.accepted_status (job : Job) : (s.accepted job).status = s.status := rfl
@[simp] theorem State.accepted_rval (job : Job) : (s.accepted job).rval = s.rval := rfl
@[simp] theorem State.accepted_trace (job : Job) : (s.accepted job).trace = s.trace := rfl
@[simp] theorem State.accepted_cfg (job : Job) : (s.accepted job).cfg = s.cfg := rfl
@[simp] theorem State.accepted_inbox (job : Job) : (s.accepted job).inbox = s.inbox := rfl
@[simp] theorem State.accepted_answers (job : Job) : (s.accepted job).answers = s.answers := rfl
@[simp] theorem State.accepted_resetLine (job : Job) : (s.accepted job).resetLine = s.resetLine := rfl
@[simp] theorem State.accepted_preload (job : Job) : (s.accepted job).preload = s.preload := rfl

/-! ## completed -/

@[simp] theorem State.completed_lstate (st : Status) (v : Slot) (es : List TraceEntry) (rest : List Answer) : (s.completed st v es rest).lstate = s.lstate := rfl
@[simp] theorem State.completed_handle (st : Status) (v : Slot) (es : List TraceEntry) (rest : List Answer) : (s.completed st v es rest).handle = s.handle := rfl
@[simp] theorem State.completed_devAddr (st : Status) (v : Slot) (es : List TraceEntry) (rest : List Answer) : (s.completed st v es rest).devAddr = s.devAddr := rfl
@[simp] theorem State.completed_width (st : Status) (v : Slot) (es : List TraceEntry) (rest : List Answer) : (s.completed st v es rest).width = s.width := rfl
@[simp] theorem State.completed_height (st : Status) (v : Slot) (es : List TraceEntry) (rest : List Answer) : (s.completed st v es rest).height = s.height := rfl
@[simp] theorem State.completed_pages (st : Status) (v : Slot) (es : List TraceEntry) (rest : List Answer) : (s.completed st v es rest).pages = s.pages := rfl
@[simp] theorem State.completed_fb (st : Status) (v : Slot) (es : List TraceEntry) (rest : List Answer) : (s.completed st v es rest).fb = s.fb := rfl
@[simp] theorem State.completed_seq (st : Status) (v : Slot) (es : List TraceEntry) (rest : List Answer) : (s.completed st v es rest).seq = none := rfl
@[simp] theorem State.completed_status (st : Status) (v : Slot) (es : List TraceEntry) (rest : List Answer) : (s.completed st v es rest).status = st := rfl
@[simp] theorem State.completed_rval (st : Status) (v : Slot) (es : List TraceEntry) (rest : List Answer) : (s.completed st v es rest).rval = v := rfl
@[simp] theorem State.completed_trace (st : Status) (v : Slot) (es : List TraceEntry) (rest : List Answer) : (s.completed st v es rest).trace = s.trace ++ es := rfl
@[simp] theorem State.completed_cfg (st : Status) (v : Slot) (es : List TraceEntry) (rest : List Answer) : (s.completed st v es rest).cfg = s.cfg := rfl
@[simp] theorem State.completed_inbox (st : Status) (v : Slot) (es : List TraceEntry) (rest : List Answer) : (s.completed st v es rest).inbox = s.inbox := rfl
@[simp] theorem State.completed_answers (st : Status) (v : Slot) (es : List TraceEntry) (rest : List Answer) : (s.completed st v es rest).answers = rest := rfl
@[simp] theorem State.completed_resetLine (st : Status) (v : Slot) (es : List TraceEntry) (rest : List Answer) : (s.completed st v es rest).resetLine = s.resetLine := rfl
@[simp] theorem State.completed_preload (st : Status) (v : Slot) (es : List TraceEntry) (rest : List Answer) : (s.completed st v es rest).preload = s.preload := rfl

/-! ## Composite updates in terms of the above -/

@[simp] theorem State.finish_eq (v : Slot) : s.finish v = s.respond .ok v := rfl
@[simp] theorem State.raiseError_eq (e : Status) : s.raiseError e = s.respond e 0#32 := rfl
@[simp] theorem State.zeroFill_eq : s.zeroFill = s.withFb [] := rfl
@[simp] theorem State.transportFailed_eq : s.transportFailed = s.respond .errTransport 0#32 := rfl
@[simp] theorem State.initFailed_eq : s.initFailed = (s.setLState .busAcquired).respond .errTransport 0#32 := rfl
@[simp] theorem State.initDone_eq : s.initDone = (s.setLState .deviceInitialized).respond .ok 0#32 := rfl
@[simp] theorem State.flushDone_eq : s.flushDone = (s.setLState .displaying).respond .ok 0#32 := rfl
@[simp] theorem State.commandDone_eq : s.commandDone = s.respond .ok 0#32 := rfl

/-! ## Views that a named update leaves alone -/

@[simp] theorem State.size_withFb (m : Memory) : (s.withFb m).size = s.size := rfl
@[simp] theorem State.size_respond (st : Status) (v : Slot) : (s.respond st v).size = s.size := rfl
@[simp] theorem State.size_setLState (l : LState) : (s.setLState l).size = s.size := rfl
@[simp] theorem State.size_logged (t : Transaction) (a : Answer) (rest : List Answer) :
    (s.logged t a rest).size = s.size := rfl
@[simp] theorem State.size_advanceIdx : s.advanceIdx.size = s.size := rfl
@[simp] theorem State.size_advancePtr (n : Nat) : (s.advancePtr n).size = s.size := rfl
@[simp] theorem State.size_accepted (job : Job) : (s.accepted job).size = s.size := rfl

@[simp] theorem State.busy_respond (st : Status) (v : Slot) : (s.respond st v).busy = false := rfl
@[simp] theorem State.busy_accepted (job : Job) : (s.accepted job).busy = true := rfl
@[simp] theorem State.busy_withFb (m : Memory) : (s.withFb m).busy = s.busy := rfl
@[simp] theorem State.busy_logged (t : Transaction) (a : Answer) (rest : List Answer) :
    (s.logged t a rest).busy = s.busy := rfl

/-- A block is idle exactly when it has no sequencer position (R30). -/
theorem State.busy_eq_false_iff : s.busy = false ↔ s.seq = none := by simp [State.busy]

/-- The bus is held exactly outside `Uninitialized` (R21). -/
theorem State.constructed_iff : s.constructed = true ↔ s.lstate ≠ .uninitialized := by simp [State.constructed]

/-- A block that may flush is constructed (R29). -/
theorem State.constructed_of_flushable (h : s.flushable = true) : s.constructed = true := by
  simp only [State.flushable, decide_eq_true_eq] at h
  rcases h with h | h <;> simp [State.constructed, h]

end Sys2Proof.Machine
end

