-- ==== Sys2Proof/Laws/Memory.lean ====
section
/-! SUPPORT. The laws of the framebuffer memory: read after write, the canonical form kept by every operation, and equal
contents are equal lists. -/

namespace Sys2Proof.Machine

namespace Memory

theorem wfFrom_mono {lo lo' : Nat} (h : lo' ≤ lo) {m : Memory} (hw : wfFrom lo m = true) : wfFrom lo' m = true := by
  cases m with
  | nil => rfl
  | cons c rest =>
    obtain ⟨k, v⟩ := c
    simp only [wfFrom, Bool.and_eq_true, decide_eq_true_eq] at hw ⊢
    exact ⟨⟨by omega, hw.1.2⟩, hw.2⟩

theorem wfFrom_memCons {lo a : Nat} {v : Byte} {m : Memory} (hlo : lo ≤ a) (hw : wfFrom (a + 1) m = true) :
    wfFrom lo (Memory.cons a v m) = true := by
  unfold Memory.cons
  split
  · exact wfFrom_mono (by omega) hw
  · rename_i hv
    simp [wfFrom, hlo, hv, hw]

theorem wfFrom_write {m : Memory} : ∀ {lo a : Nat} {v : Byte}, lo ≤ a → wfFrom lo m = true →
    wfFrom lo (write m a v) = true := by
  induction m with
  | nil => intro lo a v hlo _; exact wfFrom_memCons hlo rfl
  | cons c rest ih =>
    obtain ⟨k, b⟩ := c
    intro lo a v hlo hw
    simp only [wfFrom, Bool.and_eq_true, decide_eq_true_eq] at hw
    simp only [write]
    split
    · refine wfFrom_memCons hlo ?_
      simp only [wfFrom, Bool.and_eq_true, decide_eq_true_eq]
      exact ⟨⟨by omega, hw.1.2⟩, hw.2⟩
    · split
      · subst_vars; exact wfFrom_memCons hlo hw.2
      · simp only [wfFrom, Bool.and_eq_true, decide_eq_true_eq]
        exact ⟨hw.1, ih (by omega) hw.2⟩

/-- A write keeps the canonical form. -/
theorem wf_write {m : Memory} (a : Nat) (v : Byte) (hw : wf m = true) : wf (write m a v) = true :=
  wfFrom_write (Nat.zero_le a) hw

theorem wfFrom_andMask (keep : Nat → Byte) {m : Memory} : ∀ {lo : Nat}, wfFrom lo m = true →
    wfFrom lo (andMask keep m) = true := by
  induction m with
  | nil => intro lo h; exact h
  | cons c rest ih =>
    obtain ⟨k, b⟩ := c
    intro lo hw
    simp only [wfFrom, Bool.and_eq_true, decide_eq_true_eq] at hw
    exact wfFrom_memCons hw.1.1 (ih hw.2)

/-- Masking keeps the canonical form. -/
theorem wf_andMask (keep : Nat → Byte) {m : Memory} (hw : wf m = true) : wf (andMask keep m) = true :=
  wfFrom_andMask keep hw

/-- Zero fill is in canonical form. -/
theorem wf_zeroed : wf zeroed = true := rfl

theorem read_memCons (a : Nat) (v : Byte) (m : Memory) (x : Nat) (h : v = unlisted → read m a = unlisted) :
    read (Memory.cons a v m) x = if a = x then v else read m x := by
  unfold Memory.cons
  split
  · rename_i hv
    split
    · subst_vars; exact h rfl
    · rfl
  · rfl

/-- Below its first cell a canonical memory lists nothing. -/
theorem read_of_lt {m : Memory} : ∀ {lo a : Nat}, wfFrom lo m = true → a < lo → read m a = unlisted := by
  induction m with
  | nil => intro lo a _ _; rfl
  | cons c rest ih =>
    obtain ⟨k, b⟩ := c
    intro lo a hw ha
    simp only [wfFrom, Bool.and_eq_true, decide_eq_true_eq] at hw
    have hne : k ≠ a := by omega
    simp only [read, hne, if_false]
    exact ih hw.2 (by omega)

theorem read_write_from {m : Memory} : ∀ {lo a : Nat} {v : Byte}, wfFrom lo m = true → ∀ x,
    read (write m a v) x = if a = x then v else read m x := by
  induction m with
  | nil => intro lo a v _ x; exact read_memCons a v [] x fun _ => rfl
  | cons c rest ih =>
    obtain ⟨k, b⟩ := c
    intro lo a v hw x
    have hw' := hw
    simp only [wfFrom, Bool.and_eq_true, decide_eq_true_eq] at hw'
    simp only [write]
    split
    · rename_i hlt
      refine read_memCons a v _ x fun _ => ?_
      refine read_of_lt (lo := k) ?_ hlt
      simp only [wfFrom, Bool.and_eq_true, decide_eq_true_eq]
      exact ⟨⟨Nat.le_refl k, hw'.1.2⟩, hw'.2⟩
    · split
      · rename_i _ heq
        subst heq
        rw [read_memCons _ _ _ _ fun _ => read_of_lt hw'.2 (Nat.lt_succ_self _)]
        simp only [read]
        split <;> rfl
      · rename_i _ hne
        simp only [read]
        rw [ih hw'.2 x]
        split
        · split
          · omega
          · rfl
        · rfl

/-- Read after write: the byte written there, every other byte as before. -/
theorem read_write {m : Memory} (hw : wf m = true) (a : Nat) (v : Byte) (x : Nat) :
    read (write m a v) x = if a = x then v else read m x := read_write_from hw x

@[simp] theorem read_zeroed (a : Nat) : read zeroed a = 0x00#8 := rfl
@[simp] theorem read_nil (a : Nat) : read [] a = 0x00#8 := rfl

theorem read_andMask_from (keep : Nat → Byte) {m : Memory} : ∀ {lo : Nat}, wfFrom lo m = true → ∀ x,
    read (andMask keep m) x = read m x &&& keep x := by
  induction m with
  | nil => intro lo _ x; simp [andMask, read, unlisted]
  | cons c rest ih =>
    obtain ⟨k, b⟩ := c
    intro lo hw x
    simp only [wfFrom, Bool.and_eq_true, decide_eq_true_eq] at hw
    simp only [andMask, read]
    rw [read_memCons _ _ _ _ fun _ => ?_, ih hw.2]
    · split
      · subst_vars; rfl
      · rfl
    · rw [ih hw.2, read_of_lt hw.2 (Nat.lt_succ_self k)]
      simp [unlisted]

/-- Masking ANDs every byte with the mask of its offset. -/
theorem read_andMask (keep : Nat → Byte) {m : Memory} (hw : wf m = true) (x : Nat) :
    read (andMask keep m) x = read m x &&& keep x := read_andMask_from keep hw x

theorem below_memCons {n a : Nat} {v : Byte} {m : Memory} (ha : a < n) (hm : below n m = true) :
    below n (Memory.cons a v m) = true := by
  unfold Memory.cons
  split
  · exact hm
  · simp only [below, List.all_cons, Bool.and_eq_true, decide_eq_true_eq]
    exact ⟨ha, hm⟩

/-- A write below `n` stays below `n`. -/
theorem below_write {n : Nat} {m : Memory} {a : Nat} {v : Byte} (ha : a < n) (hm : below n m = true) :
    below n (write m a v) = true := by
  induction m with
  | nil => exact below_memCons ha rfl
  | cons c rest ih =>
    obtain ⟨k, b⟩ := c
    have hm' := hm
    simp only [below, List.all_cons, Bool.and_eq_true, decide_eq_true_eq] at hm'
    simp only [write]
    split
    · exact below_memCons ha hm
    · split
      · exact below_memCons ha hm'.2
      · simp only [below, List.all_cons, Bool.and_eq_true, decide_eq_true_eq]
        exact ⟨hm'.1, ih hm'.2⟩

/-- Masking lists no new offset. -/
theorem below_andMask {n : Nat} (keep : Nat → Byte) {m : Memory} (hm : below n m = true) :
    below n (andMask keep m) = true := by
  induction m with
  | nil => rfl
  | cons c rest ih =>
    obtain ⟨k, b⟩ := c
    simp only [below, List.all_cons, Bool.and_eq_true, decide_eq_true_eq] at hm
    exact below_memCons hm.1 (ih hm.2)

/-- Offsets from `n` on read as unlisted. -/
theorem read_of_below {n : Nat} {m : Memory} {a : Nat} (hm : below n m = true) (ha : n ≤ a) : read m a = unlisted := by
  induction m with
  | nil => rfl
  | cons c rest ih =>
    obtain ⟨k, b⟩ := c
    simp only [below, List.all_cons, Bool.and_eq_true, decide_eq_true_eq] at hm
    have hne : k ≠ a := by omega
    simp only [read, hne, if_false]
    exact ih hm.2

theorem ext_from {m : Memory} : ∀ {m' : Memory} {lo : Nat}, wfFrom lo m = true → wfFrom lo m' = true →
    (∀ a, lo ≤ a → read m a = read m' a) → m = m' := by
  induction m with
  | nil =>
    intro m' lo _ hw' h
    cases m' with
    | nil => rfl
    | cons c rest =>
      obtain ⟨k, b⟩ := c
      simp only [wfFrom, Bool.and_eq_true, decide_eq_true_eq] at hw'
      have := h k hw'.1.1
      simp only [read, if_true] at this
      exact absurd this.symm hw'.1.2
  | cons c rest ih =>
    obtain ⟨k, b⟩ := c
    intro m' lo hw hw' h
    cases m' with
    | nil =>
      simp only [wfFrom, Bool.and_eq_true, decide_eq_true_eq] at hw
      have := h k hw.1.1
      simp only [read, if_true] at this
      exact absurd this hw.1.2
    | cons c' rest' =>
      obtain ⟨k', b'⟩ := c'
      simp only [wfFrom, Bool.and_eq_true, decide_eq_true_eq] at hw hw'
      have hk : k = k' := by
        rcases Nat.lt_trichotomy k k' with hlt | heq | hgt
        · have := h k hw.1.1
          have hne : k' ≠ k := by omega
          simp only [read, if_true, hne, if_false] at this
          rw [read_of_lt hw'.2 (by omega)] at this
          exact absurd this hw.1.2
        · exact heq
        · have := h k' hw'.1.1
          have hne : k ≠ k' := by omega
          simp only [read, if_true, hne, if_false] at this
          rw [read_of_lt hw.2 (by omega)] at this
          exact absurd this.symm hw'.1.2
      subst hk
      have hb : b = b' := by
        have := h k hw.1.1
        simpa only [read, if_true] using this
      subst hb
      have hrest : rest = rest' := by
        refine ih hw.2 hw'.2 fun a ha => ?_
        have := h a (by omega)
        have hne : k ≠ a := by omega
        simpa only [read, hne, if_false] using this
      rw [hrest]

/-- Two memories in canonical form with equal contents are equal. -/
theorem ext {m m' : Memory} (hw : wf m = true) (hw' : wf m' = true) (h : ∀ a, read m a = read m' a) : m = m' :=
  ext_from hw hw' fun a _ => h a

end Memory

end Sys2Proof.Machine
end

