-- ==== Sys2Proof/Laws/PerInstr.lean ====
section
/-! SUPPORT. One lemma per instruction: its code carries the fixed bits of its row of spec/opcode_table.json (30_encoding.md
R104): the operation code of a request, the command byte of a wire command under the row's mask, the value of an argument
constant. -/

namespace Sys2Proof.Laws.TableBits

/-- The bits of a code that the table's `match` and `mask` speak of: the operation code, or the first byte. -/
def leading : Code → Nat
  | .request w => w.op.toNat
  | .wire (b :: _) => b.toNat
  | .wire [] => 0
  | .argument _ b => b.toNat

/-- The row's `mask` and `match`, as the table gives them. -/
def row : Instr → Nat × Nat
  | .construct _ _ _ _ => (15, 0)
  | .init => (15, 1)
  | .flush => (15, 2)
  | .clear => (15, 3)
  | .clearFlush => (15, 4)
  | .setStartLine _ => (15, 5)
  | .writeRaw _ _ => (15, 6)
  | .actScroll => (15, 7)
  | .deactScroll => (15, 8)
  | .scrollCfg _ _ => (15, 9)
  | .getPages => (15, 10)
  | .drawPixel _ _ _ => (15, 11)
  | .clearBlock _ _ _ _ => (15, 12)
  | .release => (15, 13)
  | .reserved14 => (15, 14)
  | .reserved15 => (15, 15)
  | .setLowColumn => (255, 0)
  | .setHighColumn => (255, 16)
  | .memoryMode _ => (255, 32)
  | .columnAddr _ _ => (255, 33)
  | .pageAddr _ _ => (255, 34)
  | .rightHorizontalScroll => (255, 38)
  | .leftHorizontalScroll => (255, 39)
  | .verticalAndRightHorizontalScroll => (255, 41)
  | .verticalAndLeftHorizontalScroll => (255, 42)
  | .deactivateScroll => (255, 46)
  | .activateScroll => (255, 47)
  | .setStartLineBase _ => (192, 64)
  | .setContrast _ => (255, 129)
  | .chargePump _ => (255, 141)
  | .segRemapBase _ => (254, 160)
  | .setVerticalScrollArea => (255, 163)
  | .displayAllOnResume => (255, 164)
  | .displayAllOn => (255, 165)
  | .normalDisplay => (255, 166)
  | .invertDisplay => (255, 167)
  | .setMultiplex _ => (255, 168)
  | .displayOff => (255, 174)
  | .displayOn => (255, 175)
  | .comScanInc => (255, 192)
  | .comScanDec => (255, 200)
  | .setDisplayOffset _ => (255, 211)
  | .setDisplayClockDiv _ => (255, 213)
  | .setPrecharge _ => (255, 217)
  | .setComPins _ => (255, 218)
  | .setVcomDetect _ => (255, 219)
  | .memoryModeVert => (255, 1)
  | .memoryModePage => (255, 2)
  | .externalVcc => (255, 1)
  | .switchCapVcc => (255, 2)

/-- The code of the instruction matches its row. -/
def Statement (i : Instr) : Prop := leading (encode i) &&& (row i).1 = (row i).2

theorem construct (a : Int) (b : BitVec 7) (c : Int) (d : Int) : Statement (.construct a b c d) := by
  simp [Statement, leading, row, encode, encodeRequest]
theorem init : Statement .init := by
  simp [Statement, leading, row, encode, encodeRequest]
theorem flush : Statement .flush := by
  simp [Statement, leading, row, encode, encodeRequest]
theorem clear : Statement .clear := by
  simp [Statement, leading, row, encode, encodeRequest]
theorem clearFlush : Statement .clearFlush := by
  simp [Statement, leading, row, encode, encodeRequest]
theorem setStartLine (a : Byte) : Statement (.setStartLine a) := by
  simp [Statement, leading, row, encode, encodeRequest]
theorem writeRaw (a : Byte) (b : Int) : Statement (.writeRaw a b) := by
  simp [Statement, leading, row, encode, encodeRequest]
theorem actScroll : Statement .actScroll := by
  simp [Statement, leading, row, encode, encodeRequest]
theorem deactScroll : Statement .deactScroll := by
  simp [Statement, leading, row, encode, encodeRequest]
theorem scrollCfg (a : Slot) (b : Slot) : Statement (.scrollCfg a b) := by
  simp [Statement, leading, row, encode, encodeRequest]
theorem getPages : Statement .getPages := by
  simp [Statement, leading, row, encode, encodeRequest]
theorem drawPixel (a : Int) (b : Int) (c : Bool) : Statement (.drawPixel a b c) := by
  simp [Statement, leading, row, encode, encodeRequest]
theorem clearBlock (a : Int) (b : Int) (c : Int) (d : Int) : Statement (.clearBlock a b c d) := by
  simp [Statement, leading, row, encode, encodeRequest]
theorem release : Statement .release := by
  simp [Statement, leading, row, encode, encodeRequest]
theorem reserved14 : Statement .reserved14 := by
  simp [Statement, leading, row, encode, encodeRequest]
theorem reserved15 : Statement .reserved15 := by
  simp [Statement, leading, row, encode, encodeRequest]
theorem setLowColumn : Statement .setLowColumn := rfl
theorem setHighColumn : Statement .setHighColumn := rfl
theorem memoryMode (a : Byte) : Statement (.memoryMode a) := by
  simp [Statement, leading, row, encode]
theorem columnAddr (a : Byte) (b : Byte) : Statement (.columnAddr a b) := by
  simp [Statement, leading, row, encode]
theorem pageAddr (a : Byte) (b : Byte) : Statement (.pageAddr a b) := by
  simp [Statement, leading, row, encode]
theorem rightHorizontalScroll : Statement .rightHorizontalScroll := rfl
theorem leftHorizontalScroll : Statement .leftHorizontalScroll := rfl
theorem verticalAndRightHorizontalScroll : Statement .verticalAndRightHorizontalScroll := rfl
theorem verticalAndLeftHorizontalScroll : Statement .verticalAndLeftHorizontalScroll := rfl
theorem deactivateScroll : Statement .deactivateScroll := rfl
theorem activateScroll : Statement .activateScroll := rfl
theorem setStartLineBase (a : BitVec 6) : Statement (.setStartLineBase a) := by
  revert a; unfold Statement; decide
theorem setContrast (a : Byte) : Statement (.setContrast a) := by
  simp [Statement, leading, row, encode]
theorem chargePump (a : Byte) : Statement (.chargePump a) := by
  simp [Statement, leading, row, encode]
theorem segRemapBase (a : Bool) : Statement (.segRemapBase a) := by
  revert a; unfold Statement; decide
theorem setVerticalScrollArea : Statement .setVerticalScrollArea := rfl
theorem displayAllOnResume : Statement .displayAllOnResume := rfl
theorem displayAllOn : Statement .displayAllOn := rfl
theorem normalDisplay : Statement .normalDisplay := rfl
theorem invertDisplay : Statement .invertDisplay := rfl
theorem setMultiplex (a : Byte) : Statement (.setMultiplex a) := by
  simp [Statement, leading, row, encode]
theorem displayOff : Statement .displayOff := rfl
theorem displayOn : Statement .displayOn := rfl
theorem comScanInc : Statement .comScanInc := rfl
theorem comScanDec : Statement .comScanDec := rfl
theorem setDisplayOffset (a : Byte) : Statement (.setDisplayOffset a) := by
  simp [Statement, leading, row, encode]
theorem setDisplayClockDiv (a : Byte) : Statement (.setDisplayClockDiv a) := by
  simp [Statement, leading, row, encode]
theorem setPrecharge (a : Byte) : Statement (.setPrecharge a) := by
  simp [Statement, leading, row, encode]
theorem setComPins (a : Byte) : Statement (.setComPins a) := by
  simp [Statement, leading, row, encode]
theorem setVcomDetect (a : Byte) : Statement (.setVcomDetect a) := by
  simp [Statement, leading, row, encode]
theorem memoryModeVert : Statement .memoryModeVert := rfl
theorem memoryModePage : Statement .memoryModePage := rfl
theorem externalVcc : Statement .externalVcc := rfl
theorem switchCapVcc : Statement .switchCapVcc := rfl

end Sys2Proof.Laws.TableBits
end

