-- ==== Sys2Proof/Laws/Transfer.lean ====
section
/-! SUPPORT. What the transport call, the two transfer primitives and runs of them do (spec/41_transfer_primitives.md):
one lemma says every outcome of each. -/

namespace Sys2Proof.Machine

@[simp] theorem allOk_nil : allOk [] := by simp [allOk]

theorem allOk_cons {a : Answer} {as : List Answer} : allOk (a :: as) ↔ a.error = false ∧ allOk as := by
  simp [allOk]

@[simp] theorem okCommands_nil (h : Handle) (addr : BitVec 7) : okCommands h addr [] = [] := rfl

theorem okCommands_cons (h : Handle) (addr : BitVec 7) (b : Byte) (bs : List Byte) :
    okCommands h addr (b :: bs) = ⟨.writeByte h addr 0x00#8 b, .ok⟩ :: okCommands h addr bs := rfl

theorem okCommands_append (h : Handle) (addr : BitVec 7) (bs cs : List Byte) :
    okCommands h addr (bs ++ cs) = okCommands h addr bs ++ okCommands h addr cs := by simp [okCommands]

@[simp] theorem okBlocks_nil (h : Handle) (addr : BitVec 7) : okBlocks h addr [] = [] := rfl

theorem okBlocks_cons (h : Handle) (addr : BitVec 7) (b : List Byte) (bs : List (List Byte)) :
    okBlocks h addr (b :: bs) = ⟨.writeBlock h addr 0x40#8 b, .ok⟩ :: okBlocks h addr bs := rfl

/-! ## Tx -/

theorem tx_nil {t : Transaction} {s : State} (h : s.answers = []) : tx t s = none := by simp [tx, h]

theorem tx_cons {t : Transaction} {s : State} {a : Answer} {rest : List Answer} (h : s.answers = a :: rest) :
    tx t s = some (a, s.logged t a rest) := by simp [tx, h]

/-! ## SendCommand and SendData -/

theorem sendCommand_waiting {h : Handle} {b : Byte} {s : State} (ha : s.answers = []) :
    sendCommand h b s = .waiting s := by simp [sendCommand, tx_nil ha]

theorem sendCommand_ok {h : Handle} {b : Byte} {s : State} {a : Answer} {rest : List Answer}
    (ha : s.answers = a :: rest) (he : a.error = false) :
    sendCommand h b s = .done (s.logged (.writeByte h s.devAddr 0x00#8 b) a rest).advanceIdx := by
  simp [sendCommand, tx_cons ha, he]

theorem sendCommand_error {h : Handle} {b : Byte} {s : State} {a : Answer} {rest : List Answer}
    (ha : s.answers = a :: rest) (he : a.error = true) :
    sendCommand h b s = .failed (s.logged (.writeByte h s.devAddr 0x00#8 b) a rest) := by
  simp [sendCommand, tx_cons ha, he]

theorem sendData_waiting {h : Handle} {bs : List Byte} {s : State} (ha : s.answers = []) :
    sendData h bs s = .waiting s := by simp [sendData, tx_nil ha]

theorem sendData_ok {h : Handle} {bs : List Byte} {s : State} {a : Answer} {rest : List Answer}
    (ha : s.answers = a :: rest) (he : a.error = false) :
    sendData h bs s = .done ((s.logged (.writeBlock h s.devAddr 0x40#8 bs) a rest).advancePtr bs.length) := by
  simp [sendData, tx_cons ha, he]

theorem sendData_error {h : Handle} {bs : List Byte} {s : State} {a : Answer} {rest : List Answer}
    (ha : s.answers = a :: rest) (he : a.error = true) :
    sendData h bs s = .failed (s.logged (.writeBlock h s.devAddr 0x40#8 bs) a rest) := by
  simp [sendData, tx_cons ha, he]

/-! ## Runs of command writes -/

/-- The state after the command writes `bytes`, all answered `Ok`, with the answers `rest` still to come. -/
def State.ranCommands (s : State) (h : Handle) (bytes : List Byte) (rest : List Answer) : State :=
  { s with
    trace := s.trace ++ okCommands h s.devAddr bytes
    answers := rest
    seq := s.seq.map fun p => { p with idx := p.idx + BitVec.ofNat 5 bytes.length } }

theorem State.ranCommands_nil (s : State) (h : Handle) : s.ranCommands h [] s.answers = s := by
  cases s with
  | mk _ _ _ _ _ _ _ seq =>
    cases seq <;> simp [State.ranCommands]

theorem State.ranCommands_cons (s : State) (h : Handle) (b : Byte) (bs : List Byte) (a : Answer) (mid rest : List Answer)
    (he : a.error = false) :
    ((s.logged (.writeByte h s.devAddr 0x00#8 b) a mid).advanceIdx).ranCommands h bs rest =
      s.ranCommands h (b :: bs) rest := by
  cases s with
  | mk _ _ _ _ _ _ _ seq =>
    cases seq with
    | none => simp [State.ranCommands, State.logged, State.advanceIdx, okCommands_cons, Transaction.reply, he]
    | some p =>
      simp only [State.ranCommands, State.logged, State.advanceIdx, okCommands_cons, Transaction.reply, he,
        Option.map_some, List.length_cons, List.append_assoc, List.cons_append, List.nil_append]
      congr 3
      apply BitVec.eq_of_toNat_eq
      simp only [BitVec.toNat_add, BitVec.toNat_ofNat]
      omega

/-- Every outcome of a run of command writes: all `Ok`; the first `Error` after a run of `Ok`; or a silent transport. -/
theorem sendCommands_cases (h : Handle) (bytes : List Byte) : ∀ s : State,
    (∃ as rest, s.answers = as ++ rest ∧ allOk as ∧ as.length = bytes.length ∧
      sendCommands h bytes s = .done (s.ranCommands h bytes rest)) ∨
    (∃ before b after as e rest, bytes = before ++ b :: after ∧ s.answers = as ++ e :: rest ∧ allOk as ∧
      as.length = before.length ∧ e.error = true ∧
      sendCommands h bytes s =
        .failed ((s.ranCommands h before (e :: rest)).logged (.writeByte h s.devAddr 0x00#8 b) e rest)) ∨
    (∃ before b after, bytes = before ++ b :: after ∧ allOk s.answers ∧ s.answers.length = before.length ∧
      sendCommands h bytes s = .waiting (s.ranCommands h before [])) := by
  induction bytes with
  | nil => intro s; exact .inl ⟨[], s.answers, rfl, allOk_nil, rfl, by rw [State.ranCommands_nil]; rfl⟩
  | cons b bs ih =>
    intro s
    cases ha : s.answers with
    | nil =>
      refine .inr (.inr ⟨[], b, bs, rfl, allOk_nil, rfl, ?_⟩)
      have := State.ranCommands_nil s h
      rw [ha] at this
      simp [sendCommands, sendCommand_waiting ha, this]
    | cons a rest =>
      cases he : a.error with
      | true =>
        refine .inr (.inl ⟨[], b, bs, [], a, rest, rfl, rfl, allOk_nil, rfl, he, ?_⟩)
        have := State.ranCommands_nil s h
        rw [ha] at this
        simp [sendCommands, sendCommand_error ha he, this]
      | false =>
        let s' := (s.logged (.writeByte h s.devAddr 0x00#8 b) a rest).advanceIdx
        have hstep : sendCommands h (b :: bs) s = sendCommands h bs s' := by
          simp [sendCommands, sendCommand_ok ha he, s']
        rcases ih s' with ⟨as, rs, h1, h2, h3, h4⟩ | ⟨p, c, q, as, e, rs, h1, h2, h3, h4, h5, h6⟩ | ⟨p, c, q, h1, h2, h3, h4⟩
        · refine .inl ⟨a :: as, rs, ?_, allOk_cons.2 ⟨he, h2⟩, by simp [h3], ?_⟩
          · simp only [s', State.advanceIdx_answers, State.logged_answers] at h1; simp [h1]
          · rw [hstep, h4, State.ranCommands_cons _ _ _ _ _ _ _ he]
        · refine .inr (.inl ⟨b :: p, c, q, a :: as, e, rs, by simp [h1], ?_, allOk_cons.2 ⟨he, h3⟩, by simp [h4], h5, ?_⟩)
          · simp only [s', State.advanceIdx_answers, State.logged_answers] at h2; simp [h2]
          · rw [hstep, h6, State.ranCommands_cons _ _ _ _ _ _ _ he]; rfl
        · simp only [s', State.advanceIdx_answers, State.logged_answers] at h2 h3
          refine .inr (.inr ⟨b :: p, c, q, by simp [h1], allOk_cons.2 ⟨he, h2⟩, by simp [h3], ?_⟩)
          rw [hstep, h4, State.ranCommands_cons _ _ _ _ _ _ _ he]

/-- Command writes all answered `Ok`. -/
theorem sendCommands_ok (h : Handle) (bytes : List Byte) : ∀ {s : State} {as rest : List Answer},
    s.answers = as ++ rest → allOk as → as.length = bytes.length →
    sendCommands h bytes s = .done (s.ranCommands h bytes rest) := by
  induction bytes with
  | nil =>
    intro s as rest ha _ hl
    obtain rfl := List.eq_nil_of_length_eq_zero hl
    simp only [List.nil_append] at ha
    rw [← ha, State.ranCommands_nil]; rfl
  | cons b bs ih =>
    intro s as rest ha hok hl
    cases as with
    | nil => simp at hl
    | cons a as =>
      rw [allOk_cons] at hok
      simp only [sendCommands, sendCommand_ok (h := h) (b := b) (rest := as ++ rest) ha hok.1]
      rw [ih rfl hok.2 (by simpa using hl), State.ranCommands_cons _ _ _ _ _ _ _ hok.1]

/-- Command writes the first of which answered `Error` is the one after `before`. -/
theorem sendCommands_error (h : Handle) (before : List Byte) (b : Byte) (after : List Byte) :
    ∀ {s : State} {as rest : List Answer} {e : Answer},
    s.answers = as ++ e :: rest → allOk as → as.length = before.length → e.error = true →
    sendCommands h (before ++ b :: after) s =
      .failed ((s.ranCommands h before (e :: rest)).logged (.writeByte h s.devAddr 0x00#8 b) e rest) := by
  induction before with
  | nil =>
    intro s as rest e ha _ hl he
    obtain rfl := List.eq_nil_of_length_eq_zero hl
    simp only [List.nil_append] at ha
    have := State.ranCommands_nil s h
    rw [ha] at this
    simp [sendCommands, sendCommand_error ha he, this]
  | cons c cs ih =>
    intro s as rest e ha hok hl he
    cases as with
    | nil => simp at hl
    | cons a as =>
      rw [allOk_cons] at hok
      simp only [List.cons_append, sendCommands, sendCommand_ok (h := h) (b := c) (rest := as ++ e :: rest) ha hok.1]
      rw [ih rfl hok.2 (by simpa using hl) he, State.ranCommands_cons _ _ _ _ _ _ _ hok.1]; rfl

/-- Command writes of which the transport answers only those of `before`, all `Ok`. -/
theorem sendCommands_waiting (h : Handle) (before : List Byte) (b : Byte) (after : List Byte) :
    ∀ {s : State}, allOk s.answers → s.answers.length = before.length →
    sendCommands h (before ++ b :: after) s = .waiting (s.ranCommands h before []) := by
  induction before with
  | nil =>
    intro s _ hl
    have ha := List.eq_nil_of_length_eq_zero hl
    have := State.ranCommands_nil s h
    rw [ha] at this
    simp [sendCommands, sendCommand_waiting ha, this]
  | cons c cs ih =>
    intro s hok hl
    cases ha : s.answers with
    | nil => simp [ha] at hl
    | cons a as =>
      rw [ha] at hok hl
      rw [allOk_cons] at hok
      simp only [List.cons_append, sendCommands, sendCommand_ok (h := h) (b := c) ha hok.1]
      rw [ih (by simpa using hok.2) (by simpa using hl), State.ranCommands_cons _ _ _ _ _ _ _ hok.1]

/-! ## Runs of data writes -/

/-- The state after the data writes `blocks`, all answered `Ok`, with the answers `rest` still to come. -/
def State.ranBlocks (s : State) (h : Handle) (blocks : List (List Byte)) (rest : List Answer) : State :=
  { s with
    trace := s.trace ++ okBlocks h s.devAddr blocks
    answers := rest
    seq := s.seq.map fun p => { p with ptr := p.ptr + BitVec.ofNat 17 blocks.flatten.length } }

theorem State.ranBlocks_nil (s : State) (h : Handle) : s.ranBlocks h [] s.answers = s := by
  cases s with
  | mk _ _ _ _ _ _ _ seq =>
    cases seq <;> simp [State.ranBlocks]

theorem State.ranBlocks_cons (s : State) (h : Handle) (b : List Byte) (bs : List (List Byte)) (a : Answer)
    (mid rest : List Answer) (he : a.error = false) :
    ((s.logged (.writeBlock h s.devAddr 0x40#8 b) a mid).advancePtr b.length).ranBlocks h bs rest =
      s.ranBlocks h (b :: bs) rest := by
  cases s with
  | mk _ _ _ _ _ _ _ seq =>
    cases seq with
    | none => simp [State.ranBlocks, State.logged, State.advancePtr, okBlocks_cons, Transaction.reply, he]
    | some p =>
      simp only [State.ranBlocks, State.logged, State.advancePtr, okBlocks_cons, Transaction.reply, he,
        Option.map_some, List.flatten_cons, List.length_append, List.append_assoc, List.cons_append, List.nil_append]
      congr 3
      apply BitVec.eq_of_toNat_eq
      simp only [BitVec.toNat_add, BitVec.toNat_ofNat]
      omega

/-- Every outcome of a run of data writes: all `Ok`; the first `Error` after a run of `Ok`; or a silent transport. -/
theorem sendBlocks_cases (h : Handle) (blocks : List (List Byte)) : ∀ s : State,
    (∃ as rest, s.answers = as ++ rest ∧ allOk as ∧ as.length = blocks.length ∧
      sendBlocks h blocks s = .done (s.ranBlocks h blocks rest)) ∨
    (∃ before b after as e rest, blocks = before ++ b :: after ∧ s.answers = as ++ e :: rest ∧ allOk as ∧
      as.length = before.length ∧ e.error = true ∧
      sendBlocks h blocks s =
        .failed ((s.ranBlocks h before (e :: rest)).logged (.writeBlock h s.devAddr 0x40#8 b) e rest)) ∨
    (∃ before b after, blocks = before ++ b :: after ∧ allOk s.answers ∧ s.answers.length = before.length ∧
      sendBlocks h blocks s = .waiting (s.ranBlocks h before [])) := by
  induction blocks with
  | nil => intro s; exact .inl ⟨[], s.answers, rfl, allOk_nil, rfl, by rw [State.ranBlocks_nil]; rfl⟩
  | cons b bs ih =>
    intro s
    cases ha : s.answers with
    | nil =>
      refine .inr (.inr ⟨[], b, bs, rfl, allOk_nil, rfl, ?_⟩)
      have := State.ranBlocks_nil s h
      rw [ha] at this
      simp [sendBlocks, sendData_waiting ha, this]
    | cons a rest =>
      cases he : a.error with
      | true =>
        refine .inr (.inl ⟨[], b, bs, [], a, rest, rfl, rfl, allOk_nil, rfl, he, ?_⟩)
        have := State.ranBlocks_nil s h
        rw [ha] at this
        simp [sendBlocks, sendData_error ha he, this]
      | false =>
        let s' := (s.logged (.writeBlock h s.devAddr 0x40#8 b) a rest).advancePtr b.length
        have hstep : sendBlocks h (b :: bs) s = sendBlocks h bs s' := by
          simp [sendBlocks, sendData_ok ha he, s']
        rcases ih s' with ⟨as, rs, h1, h2, h3, h4⟩ | ⟨p, c, q, as, e, rs, h1, h2, h3, h4, h5, h6⟩ | ⟨p, c, q, h1, h2, h3, h4⟩
        · refine .inl ⟨a :: as, rs, ?_, allOk_cons.2 ⟨he, h2⟩, by simp [h3], ?_⟩
          · simp only [s', State.advancePtr_answers, State.logged_answers] at h1; simp [h1]
          · rw [hstep, h4, State.ranBlocks_cons _ _ _ _ _ _ _ he]
        · refine .inr (.inl ⟨b :: p, c, q, a :: as, e, rs, by simp [h1], ?_, allOk_cons.2 ⟨he, h3⟩, by simp [h4], h5, ?_⟩)
          · simp only [s', State.advancePtr_answers, State.logged_answers] at h2; simp [h2]
          · rw [hstep, h6, State.ranBlocks_cons _ _ _ _ _ _ _ he]; rfl
        · simp only [s', State.advancePtr_answers, State.logged_answers] at h2 h3
          refine .inr (.inr ⟨b :: p, c, q, by simp [h1], allOk_cons.2 ⟨he, h2⟩, by simp [h3], ?_⟩)
          rw [hstep, h4, State.ranBlocks_cons _ _ _ _ _ _ _ he]

/-- Data writes all answered `Ok`. -/
theorem sendBlocks_ok (h : Handle) (blocks : List (List Byte)) : ∀ {s : State} {as rest : List Answer},
    s.answers = as ++ rest → allOk as → as.length = blocks.length →
    sendBlocks h blocks s = .done (s.ranBlocks h blocks rest) := by
  induction blocks with
  | nil =>
    intro s as rest ha _ hl
    obtain rfl := List.eq_nil_of_length_eq_zero hl
    simp only [List.nil_append] at ha
    rw [← ha, State.ranBlocks_nil]; rfl
  | cons b bs ih =>
    intro s as rest ha hok hl
    cases as with
    | nil => simp at hl
    | cons a as =>
      rw [allOk_cons] at hok
      simp only [sendBlocks, sendData_ok (h := h) (bs := b) (rest := as ++ rest) ha hok.1]
      rw [ih rfl hok.2 (by simpa using hl), State.ranBlocks_cons _ _ _ _ _ _ _ hok.1]

/-- Data writes the first of which answered `Error` is the one after `before`. -/
theorem sendBlocks_error (h : Handle) (before : List (List Byte)) (b : List Byte) (after : List (List Byte)) :
    ∀ {s : State} {as rest : List Answer} {e : Answer},
    s.answers = as ++ e :: rest → allOk as → as.length = before.length → e.error = true →
    sendBlocks h (before ++ b :: after) s =
      .failed ((s.ranBlocks h before (e :: rest)).logged (.writeBlock h s.devAddr 0x40#8 b) e rest) := by
  induction before with
  | nil =>
    intro s as rest e ha _ hl he
    obtain rfl := List.eq_nil_of_length_eq_zero hl
    simp only [List.nil_append] at ha
    have := State.ranBlocks_nil s h
    rw [ha] at this
    simp [sendBlocks, sendData_error ha he, this]
  | cons c cs ih =>
    intro s as rest e ha hok hl he
    cases as with
    | nil => simp at hl
    | cons a as =>
      rw [allOk_cons] at hok
      simp only [List.cons_append, sendBlocks, sendData_ok (h := h) (bs := c) (rest := as ++ e :: rest) ha hok.1]
      rw [ih rfl hok.2 (by simpa using hl) he, State.ranBlocks_cons _ _ _ _ _ _ _ hok.1]; rfl

/-- Data writes of which the transport answers only those of `before`, all `Ok`. -/
theorem sendBlocks_waiting (h : Handle) (before : List (List Byte)) (b : List Byte) (after : List (List Byte)) :
    ∀ {s : State}, allOk s.answers → s.answers.length = before.length →
    sendBlocks h (before ++ b :: after) s = .waiting (s.ranBlocks h before []) := by
  induction before with
  | nil =>
    intro s _ hl
    have ha := List.eq_nil_of_length_eq_zero hl
    have := State.ranBlocks_nil s h
    rw [ha] at this
    simp [sendBlocks, sendData_waiting ha, this]
  | cons c cs ih =>
    intro s hok hl
    cases ha : s.answers with
    | nil => simp [ha] at hl
    | cons a as =>
      rw [ha] at hok hl
      rw [allOk_cons] at hok
      simp only [List.cons_append, sendBlocks, sendData_ok (h := h) (bs := c) ha hok.1]
      rw [ih (by simpa using hok.2) (by simpa using hl), State.ranBlocks_cons _ _ _ _ _ _ _ hok.1]

end Sys2Proof.Machine
end

