-- ==== Sys2Proof/Laws/Sequencer.lean ====
section
/-! SUPPORT. What the sequencer does (10_state.md R31): every outcome of running an operation's transactions, and the
shared guards of the meanings. -/

namespace Sys2Proof.Machine

/-! ## Guards -/

/-- An idle block starts the operation. -/
theorem whenIdle_idle {s : State} {op : State → Result} (h : s.busy = false) : whenIdle s op = op s := by
  simp [whenIdle, h]

/-- A busy block is unchanged. -/
theorem whenIdle_busy {s : State} {op : State → Result} (h : s.busy = true) : whenIdle s op = .next s := by
  simp [whenIdle, h]

/-- A constructed block passes the common state check. -/
theorem whenConstructed_pass {s : State} {op : State → Result} (h : s.constructed = true) :
    whenConstructed s op = op s := by simp [whenConstructed, h]

/-- In `Uninitialized` the common state check ends the operation with `ERR_PRECOND`. -/
theorem whenConstructed_uninitialized {s : State} {op : State → Result} (h : s.lstate = .uninitialized) :
    whenConstructed s op = .next (s.respond .errPrecond 0#32) := by simp [whenConstructed, State.constructed, h]

/-! ## Runs leave the rest of the state alone -/

section
variable (s : State) (h : Handle) (bytes : List Byte) (blocks : List (List Byte)) (rest : List Answer)

@[simp] theorem State.ranCommands_lstate : (s.ranCommands h bytes rest).lstate = s.lstate := rfl
@[simp] theorem State.ranCommands_handle : (s.ranCommands h bytes rest).handle = s.handle := rfl
@[simp] theorem State.ranCommands_devAddr : (s.ranCommands h bytes rest).devAddr = s.devAddr := rfl
@[simp] theorem State.ranCommands_width : (s.ranCommands h bytes rest).width = s.width := rfl
@[simp] theorem State.ranCommands_height : (s.ranCommands h bytes rest).height = s.height := rfl
@[simp] theorem State.ranCommands_pages : (s.ranCommands h bytes rest).pages = s.pages := rfl
@[simp] theorem State.ranCommands_fb : (s.ranCommands h bytes rest).fb = s.fb := rfl
@[simp] theorem State.ranCommands_status : (s.ranCommands h bytes rest).status = s.status := rfl
@[simp] theorem State.ranCommands_rval : (s.ranCommands h bytes rest).rval = s.rval := rfl
@[simp] theorem State.ranCommands_cfg : (s.ranCommands h bytes rest).cfg = s.cfg := rfl
@[simp] theorem State.ranCommands_inbox : (s.ranCommands h bytes rest).inbox = s.inbox := rfl
@[simp] theorem State.ranCommands_answers : (s.ranCommands h bytes rest).answers = rest := rfl
@[simp] theorem State.ranCommands_resetLine : (s.ranCommands h bytes rest).resetLine = s.resetLine := rfl
@[simp] theorem State.ranCommands_preload : (s.ranCommands h bytes rest).preload = s.preload := rfl
@[simp] theorem State.ranCommands_trace :
    (s.ranCommands h bytes rest).trace = s.trace ++ okCommands h s.devAddr bytes := rfl
@[simp] theorem State.ranCommands_seq : (s.ranCommands h bytes rest).seq =
    s.seq.map fun p => { p with idx := p.idx + BitVec.ofNat 5 bytes.length } := rfl
@[simp] theorem State.size_ranCommands : (s.ranCommands h bytes rest).size = s.size := rfl

@[simp] theorem State.ranBlocks_lstate : (s.ranBlocks h blocks rest).lstate = s.lstate := rfl
@[simp] theorem State.ranBlocks_handle : (s.ranBlocks h blocks rest).handle = s.handle := rfl
@[simp] theorem State.ranBlocks_devAddr : (s.ranBlocks h blocks rest).devAddr = s.devAddr := rfl
@[simp] theorem State.ranBlocks_width : (s.ranBlocks h blocks rest).width = s.width := rfl
@[simp] theorem State.ranBlocks_height : (s.ranBlocks h blocks rest).height = s.height := rfl
@[simp] theorem State.ranBlocks_pages : (s.ranBlocks h blocks rest).pages = s.pages := rfl
@[simp] theorem State.ranBlocks_fb : (s.ranBlocks h blocks rest).fb = s.fb := rfl
@[simp] theorem State.ranBlocks_status : (s.ranBlocks h blocks rest).status = s.status := rfl
@[simp] theorem State.ranBlocks_rval : (s.ranBlocks h blocks rest).rval = s.rval := rfl
@[simp] theorem State.ranBlocks_cfg : (s.ranBlocks h blocks rest).cfg = s.cfg := rfl
@[simp] theorem State.ranBlocks_inbox : (s.ranBlocks h blocks rest).inbox = s.inbox := rfl
@[simp] theorem State.ranBlocks_answers : (s.ranBlocks h blocks rest).answers = rest := rfl
@[simp] theorem State.ranBlocks_resetLine : (s.ranBlocks h blocks rest).resetLine = s.resetLine := rfl
@[simp] theorem State.ranBlocks_preload : (s.ranBlocks h blocks rest).preload = s.preload := rfl
@[simp] theorem State.ranBlocks_trace :
    (s.ranBlocks h blocks rest).trace = s.trace ++ okBlocks h s.devAddr blocks := rfl
@[simp] theorem State.ranBlocks_seq : (s.ranBlocks h blocks rest).seq =
    s.seq.map fun p => { p with ptr := p.ptr + BitVec.ofNat 17 blocks.flatten.length } := rfl
@[simp] theorem State.size_ranBlocks : (s.ranBlocks h blocks rest).size = s.size := rfl
end

/-! ## The sequencer -/

/-- Everything was answered `Ok`. -/
theorem sendAll_ok {cmds : List Byte} {blocks : List (List Byte)} {onOk onError : State → State} {s : State} {h : Handle}
    {as bs rest : List Answer} (hh : s.handle = some h) (ha : s.answers = as ++ (bs ++ rest)) (h1 : allOk as)
    (h2 : allOk bs) (hl : as.length = cmds.length) (hm : bs.length = blocks.length) :
    sendAll cmds blocks onOk onError s = .next (onOk ((s.ranCommands h cmds (bs ++ rest)).ranBlocks h blocks rest)) := by
  simp only [sendAll, hh, sendCommands_ok h cmds ha h1 hl]
  rw [sendBlocks_ok h blocks (s := s.ranCommands h cmds (bs ++ rest)) rfl h2 hm]

/-- Every outcome of the sequencer where `HANDLE` holds a value: complete; a command write failed; a data write failed;
waiting on a command write; waiting on a data write. -/
theorem sendAll_cases {s : State} {h : Handle} (hh : s.handle = some h) (cmds : List Byte) (blocks : List (List Byte))
    (onOk onError : State → State) :
    (∃ as bs rest, s.answers = as ++ (bs ++ rest) ∧ allOk as ∧ allOk bs ∧ as.length = cmds.length ∧
      bs.length = blocks.length ∧
      sendAll cmds blocks onOk onError s =
        .next (onOk ((s.ranCommands h cmds (bs ++ rest)).ranBlocks h blocks rest))) ∨
    (∃ before b after as e rest, cmds = before ++ b :: after ∧ s.answers = as ++ e :: rest ∧ allOk as ∧
      as.length = before.length ∧ e.error = true ∧
      sendAll cmds blocks onOk onError s =
        .next (onError ((s.ranCommands h before (e :: rest)).logged (.writeByte h s.devAddr 0x00#8 b) e rest))) ∨
    (∃ before b after as bs e rest, blocks = before ++ b :: after ∧ s.answers = as ++ (bs ++ e :: rest) ∧ allOk as ∧
      allOk bs ∧ as.length = cmds.length ∧ bs.length = before.length ∧ e.error = true ∧
      sendAll cmds blocks onOk onError s =
        .next (onError (((s.ranCommands h cmds (bs ++ e :: rest)).ranBlocks h before (e :: rest)).logged
          (.writeBlock h s.devAddr 0x40#8 b) e rest))) ∨
    (∃ before b after, cmds = before ++ b :: after ∧ allOk s.answers ∧ s.answers.length = before.length ∧
      sendAll cmds blocks onOk onError s = .next (s.ranCommands h before [])) ∨
    (∃ before b after as bs, blocks = before ++ b :: after ∧ s.answers = as ++ bs ∧ allOk as ∧ allOk bs ∧
      as.length = cmds.length ∧ bs.length = before.length ∧
      sendAll cmds blocks onOk onError s = .next ((s.ranCommands h cmds bs).ranBlocks h before [])) := by
  rcases sendCommands_cases h cmds s with ⟨as, r, h1, h2, h3, h4⟩ | ⟨p, c, q, as, e, r, h1, h2, h3, h4, h5, h6⟩ |
    ⟨p, c, q, h1, h2, h3, h4⟩
  · rcases sendBlocks_cases h blocks (s.ranCommands h cmds r) with ⟨bs, r', k1, k2, k3, k4⟩ |
      ⟨p, c, q, bs, e, r', k1, k2, k3, k4, k5, k6⟩ | ⟨p, c, q, k1, k2, k3, k4⟩
    · simp only [State.ranCommands_answers] at k1
      subst k1
      exact .inl ⟨as, bs, r', h1, h2, k2, h3, k3, by simp [sendAll, hh, h4, k4]⟩
    · simp only [State.ranCommands_answers] at k2
      subst k2
      exact .inr (.inr (.inl ⟨p, c, q, as, bs, e, r', k1, h1, h2, k3, h3, k4, k5, by simp [sendAll, hh, h4, k6]⟩))
    · simp only [State.ranCommands_answers] at k2 k3
      exact .inr (.inr (.inr (.inr ⟨p, c, q, as, r, k1, h1, h2, k2, h3, k3, by simp [sendAll, hh, h4, k4]⟩)))
  · exact .inr (.inl ⟨p, c, q, as, e, r, h1, h2, h3, h4, h5, by simp [sendAll, hh, h6]⟩)
  · exact .inr (.inr (.inr (.inl ⟨p, c, q, h1, h2, h3, by simp [sendAll, hh, h4]⟩)))

/-! ## The blocks of a flush (R182) -/

/-- `MemRead(i, n)` has `n` bytes. -/
@[simp] theorem State.memRead_length (s : State) (i n : Nat) : (s.memRead i n).length = n := by simp [State.memRead]

/-- The number of blocks is `ceil((N - ptr) / 16)`. -/
@[simp] theorem State.dataBlocks_length (s : State) (ptr : Nat) :
    (s.dataBlocks ptr).length = (s.size - ptr + 15) / 16 := by simp [State.dataBlocks]

/-- Two reads one after the other are one read. -/
theorem State.memRead_append (s : State) (i n m : Nat) : s.memRead i n ++ s.memRead (i + n) m = s.memRead i (n + m) := by
  simp [State.memRead, List.range_add, Nat.add_assoc]

/-- From an offset short of `N` on: one block, then the blocks from its end on. -/
theorem State.dataBlocks_step (s : State) {ptr : Nat} (h : ptr < s.size) :
    s.dataBlocks ptr =
      s.memRead ptr (min 16 (s.size - ptr)) :: s.dataBlocks (ptr + 16) := by
  have hn : (s.size - ptr + 15) / 16 = (s.size - (ptr + 16) + 15) / 16 + 1 := by omega
  simp only [State.dataBlocks, Config.chunk, hn, List.range_succ_eq_map, List.map_cons, List.map_map, Nat.mul_zero,
    Nat.add_zero]
  congr 1
  apply List.map_congr_left
  intro k _
  have : ptr + 16 * (k + 1) = ptr + 16 + 16 * k := by omega
  simp [Function.comp, this]

/-- At or past `N` there is no block left. -/
theorem State.dataBlocks_end (s : State) {ptr : Nat} (h : s.size ≤ ptr) : s.dataBlocks ptr = [] := by
  have : (s.size - ptr + 15) / 16 = 0 := by omega
  simp [State.dataBlocks, this]

end Sys2Proof.Machine
end

