-- ==== Sys2Proof/Tests/Slice0.lean ====
section
/-! SUPPORT. Tests, each about one word or one step, with expected results from the worked examples and tables of
spec/95_test_vectors.md (S1 to S9, V1 to V12), and a witness for every obligation that has hypotheses. -/

namespace Sys2Proof.Tests

open Sys2Proof.Machine

/-! ## Helpers -/

/-- The next state of a result, if it is one. -/
def nextOf : Result → Option State
  | .next t => some t
  | .fault _ => none
  | .refused _ => none

/-- Why a result is no next state, if the machine refuses. -/
def refusalOf : Result → Option Refusal
  | .next _ => none
  | .fault _ => none
  | .refused r => some r

/-- One step with the request word `w` presented. -/
def request (w : ReqWord) (s : State) : Option State := nextOf (step { s with inbox := [w] })

/-- The handle the transport returns in the vectors. -/
def hnd : Handle := ⟨7⟩

/-- `n` answers `Ok`. -/
def oks (n : Nat) : List Answer := List.replicate n ⟨false, hnd⟩

/-- An answer `Error`. -/
def err : Answer := ⟨true, ⟨0⟩⟩

/-- A block constructed as `w` columns of `p` pages, in lifecycle state `l`, with answers to come. -/
def panel (l : LState) (w p : Nat) (as : List Answer) : State :=
  { State.reset with
    lstate := l, handle := some hnd, width := BitVec.ofNat 9 w, height := BitVec.ofNat 12 (8 * p), pages := BitVec.ofNat 9 p,
    answers := as }

/-- The values of the command writes a step added to an empty `TRACE`, with whether each was answered `Ok`. -/
def writes (s : State) : List (Byte × Bool) :=
  s.trace.filterMap fun e =>
    match e.tx with
    | .writeByte _ _ _ v => some (v, decide (e.reply = .ok))
    | .openBus _ => none
    | .writeBlock _ _ _ _ => none

/-- The payloads of the data writes in `TRACE`. -/
def payloads (s : State) : List (List Byte) :=
  s.trace.filterMap fun e =>
    match e.tx with
    | .writeBlock _ _ _ bs => some bs
    | .openBus _ => none
    | .writeByte _ _ _ _ => none

/-- The response with the lifecycle state. -/
def response (s : State) : LState × Status × Nat := (s.lstate, s.status, s.rval.toNat)

/-! ## Well-formedness refuses each ill-formed term (R12, R81) -/

theorem test_wf_refuses_busId : (Instr.construct 2147483648 0#7 64 128).wf = false := by decide
theorem test_wf_refuses_height : (Instr.construct 1 0#7 (-2147483649) 128).wf = false := by decide
theorem test_wf_refuses_width : (Instr.construct 1 0#7 64 2147483648).wf = false := by decide
theorem test_wf_refuses_linearOffset : (Instr.writeRaw 0#8 2147483648).wf = false := by decide
theorem test_wf_refuses_pixel_x : (Instr.drawPixel (-2147483649) 0 true).wf = false := by decide
theorem test_wf_refuses_pixel_y : (Instr.drawPixel 0 2147483648 true).wf = false := by decide
theorem test_wf_refuses_block_x0 : (Instr.clearBlock 2147483648 0 0 0).wf = false := by decide
theorem test_wf_refuses_block_y0 : (Instr.clearBlock 0 (-2147483649) 0 0).wf = false := by decide
theorem test_wf_refuses_block_dx : (Instr.clearBlock 0 0 2147483648 0).wf = false := by decide
theorem test_wf_refuses_block_dy : (Instr.clearBlock 0 0 0 (-2147483649)).wf = false := by decide

/-- The ends of the slot's range are accepted. -/
theorem test_wf_accepts_the_ends : (Instr.clearBlock (-2147483648) 2147483647 (-2147483648) 2147483647).wf = true := by decide

/-! ## Decoding of words written out from the encodings -/

/-- Requests with operands (the words of V2, V3, V4, V6, V7, V11; R80 to R83). -/
theorem test_decode_requests_with_operands :
    decodeRequest 0x00000080000000400000003C000000010#132 = .construct 1 0x3C#7 64 128 ∧
    decodeRequest 0x0000008000000040000000BCFFFFFFFF0#132 = .construct (-1) 0x3C#7 64 128 ∧
    decodeRequest 0x000000000000000000000000000001455#132 = .setStartLine 0x45#8 ∧
    decodeRequest 0x0000000000000000FFFFFFFF000000016#132 = .writeRaw 0x01#8 (-1) ∧
    decodeRequest 0x000000000000000000000007000000019#132 = .scrollCfg 1#32 7#32 ∧
    decodeRequest 0x00000000000000010000001400000005B#132 = .drawPixel 5 20 true ∧
    decodeRequest 0x00000000800000000000000300000002B#132 = .drawPixel 2 3 true ∧
    decodeRequest 0xDEADBEEF000000000000001400000005B#132 = .drawPixel 5 20 false ∧
    decodeRequest 0x000000080000000500000004FFFFFFFEC#132 = .clearBlock (-2) 4 5 8 ∧
    decodeRequest 0x7FFFFFFF7FFFFFFF8000000080000000C#132 =
      .clearBlock (-2147483648) (-2147483648) 2147483647 2147483647 := by decide

/-- Requests without operands, and the two reserved codes (R82, R85). -/
theorem test_decode_requests_without_operands :
    decodeRequest 0x000000000000000000000000000000001#132 = .init ∧
    decodeRequest 0x000000000000000000000000000000002#132 = .flush ∧
    decodeRequest 0x000000000000000000000000000000003#132 = .clear ∧
    decodeRequest 0x000000000000000000000000000000004#132 = .clearFlush ∧
    decodeRequest 0x000000000000000000000000000000007#132 = .actScroll ∧
    decodeRequest 0x000000000000000000000000000000008#132 = .deactScroll ∧
    decodeRequest 0x00000000000000000000000000000000A#132 = .getPages ∧
    decodeRequest 0x00000000000000000000000000000000D#132 = .release ∧
    decodeRequest 0x00000000000000000000000000000000E#132 = .reserved14 ∧
    decodeRequest 0xFFFFFFFFFFFFFFFFFFFFFFFFFFFFFFFFF#132 = .reserved15 := by decide

/-- One-byte wire commands (R93, R95), bits written out. -/
theorem test_decode_wire_one_byte :
    decode (.wire [0b10101110#8]) = .ok .displayOff ∧ decode (.wire [0b10101111#8]) = .ok .displayOn ∧
    decode (.wire [0b10100110#8]) = .ok .normalDisplay ∧ decode (.wire [0b11001000#8]) = .ok .comScanDec ∧
    decode (.wire [0b00101111#8]) = .ok .activateScroll ∧ decode (.wire [0b00101110#8]) = .ok .deactivateScroll ∧
    decode (.wire [0b01000101#8]) = .ok (.setStartLineBase 0b000101#6) ∧
    decode (.wire [0b01111111#8]) = .ok (.setStartLineBase 0b111111#6) ∧
    decode (.wire [0b10100000#8]) = .ok (.segRemapBase false) ∧
    decode (.wire [0b10100001#8]) = .ok (.segRemapBase true) := ⟨rfl, rfl, rfl, rfl, rfl, rfl, rfl, rfl, rfl, rfl⟩

/-- Wire commands with argument bytes (R92, R95). -/
theorem test_decode_wire_with_arguments :
    decode (.wire [0x20#8, 0x00#8]) = .ok (.memoryMode 0x00#8) ∧
    decode (.wire [0x81#8, 0x8F#8]) = .ok (.setContrast 0x8F#8) ∧
    decode (.wire [0x8D#8, 0x14#8]) = .ok (.chargePump 0x14#8) ∧
    decode (.wire [0xA8#8, 0x3F#8]) = .ok (.setMultiplex 0x3F#8) ∧
    decode (.wire [0xD3#8, 0x00#8]) = .ok (.setDisplayOffset 0x00#8) ∧
    decode (.wire [0xD5#8, 0x80#8]) = .ok (.setDisplayClockDiv 0x80#8) ∧
    decode (.wire [0xD9#8, 0xF1#8]) = .ok (.setPrecharge 0xF1#8) ∧
    decode (.wire [0xDA#8, 0x12#8]) = .ok (.setComPins 0x12#8) ∧
    decode (.wire [0xDB#8, 0x40#8]) = .ok (.setVcomDetect 0x40#8) ∧
    decode (.wire [0x21#8, 0x00#8, 0x7F#8]) = .ok (.columnAddr 0x00#8 0x7F#8) ∧
    decode (.wire [0x22#8, 0x00#8, 0x07#8]) = .ok (.pageAddr 0x00#8 0x07#8) :=
  ⟨rfl, rfl, rfl, rfl, rfl, rfl, rfl, rfl, rfl, rfl, rfl⟩

/-- Command bytes that are never sent (R97). -/
theorem test_decode_never_sent :
    decode (.wire [0x00#8]) = .ok .setLowColumn ∧ decode (.wire [0x10#8]) = .ok .setHighColumn ∧
    decode (.wire [0x26#8]) = .ok .rightHorizontalScroll ∧ decode (.wire [0x27#8]) = .ok .leftHorizontalScroll ∧
    decode (.wire [0x29#8]) = .ok .verticalAndRightHorizontalScroll ∧
    decode (.wire [0x2A#8]) = .ok .verticalAndLeftHorizontalScroll ∧
    decode (.wire [0xA3#8]) = .ok .setVerticalScrollArea ∧ decode (.wire [0xA4#8]) = .ok .displayAllOnResume ∧
    decode (.wire [0xA5#8]) = .ok .displayAllOn ∧ decode (.wire [0xA7#8]) = .ok .invertDisplay ∧
    decode (.wire [0xC0#8]) = .ok .comScanInc := ⟨rfl, rfl, rfl, rfl, rfl, rfl, rfl, rfl, rfl, rfl, rfl⟩

/-- Argument constants (R98). -/
theorem test_decode_argument_constants :
    decode (.argument .memoryMode 0x01#8) = .ok .memoryModeVert ∧ decode (.argument .memoryMode 0x02#8) = .ok .memoryModePage ∧
    decode (.argument .chargePump 0x01#8) = .ok .externalVcc ∧ decode (.argument .chargePump 0x02#8) = .ok .switchCapVcc :=
  ⟨rfl, rfl, rfl, rfl⟩

/-- Codes that are no instruction are rejected by name. -/
theorem test_decode_rejects :
    decode (.wire []) = .error .emptyCommand ∧ decode (.wire [0x01#8]) = .error (.unknownCommand 0x01#8) ∧
    decode (.wire [0x21#8, 0x00#8]) = .error (.missingArgument 0x21#8) ∧
    decode (.wire [0xAE#8, 0xAF#8]) = .error .trailingBytes ∧
    decode (.argument .memoryMode 0x03#8) = .error (.unknownArgument 0x03#8) := ⟨rfl, rfl, rfl, rfl, rfl⟩

/-- Words as the opcode table numbers them. -/
theorem test_decodeTableWord :
    decodeTableWord 8 0x0B = some (.drawPixel 0 0 false) ∧ decodeTableWord 8 0x0F = some .reserved15 ∧
    decodeTableWord 8 0xA8 = some (.setMultiplex 0x00#8) ∧ decodeTableWord 24 0x070021 = some (.columnAddr 0x00#8 0x07#8) ∧
    decodeTableWord 8 0x40 = some (.setStartLineBase 0#6) ∧
    decodeTableWord 136 0x00000080000000400000003C000000010 = some (.construct 1 0x3C#7 64 128) := by decide

/-- The next step runs the word that was placed. -/
theorem test_withFetchWord_runs_a_request :
    (nextOf (step (State.reset.withFetchWord 8 0x0D))).map response = some (.uninitialized, .ok, 0) := by decide
theorem test_withFetchWord_runs_a_command :
    (nextOf (step ((panel .busAcquired 20 2 (oks 1)).withFetchWord 8 0xA6))).map writes = some [(0xA6#8, true)] := by decide

/-! ## CONSTRUCT, RELEASE, GET_PAGES, SCROLL_CFG, reserved codes (V6, V7) -/

theorem test_construct_128x64 :
    (request 0x00000080000000400000003C000000010#132 { State.reset with answers := oks 1 }).map (fun t =>
      (response t, (t.handle, t.devAddr), [t.width.toNat, t.height.toNat, t.pages.toNat, t.size])) =
      some ((.busAcquired, .ok, 0), (some hnd, 0x3C#7), [128, 64, 8, 1024]) := by decide

theorem test_construct_width_257_refused :
    (request 0x00000101000000400000003C000000010#132 { State.reset with answers := oks 1 }).map (fun t =>
      (response t, t.trace)) = some ((.uninitialized, .errPrecond, 0), []) := by decide

theorem test_release_in_displaying :
    (request 0x00000000000000000000000000000000D#132 (panel .displaying 128 8 [])).map (fun t =>
      (response t, t.devAddr, t.size, t.handle)) = some ((.uninitialized, .ok, 0), 0x3C#7, 0, none) := by decide

theorem test_getPages_largest :
    (request 0x00000000000000000000000000000000A#132 (panel .busAcquired 256 256 [])).map response =
      some (.busAcquired, .ok, 256) := by decide

theorem test_scrollCfg_sends_nothing :
    (request 0x000000000000000000000007000000019#132 (panel .deviceInitialized 128 8 (oks 1))).map (fun t =>
      (response t, t.trace)) = some ((.deviceInitialized, .ok, 0), []) := by decide

theorem test_reserved14 :
    (request 0x00000000000000000000000000000000E#132 (panel .displaying 128 8 [])).map response =
      some (.displaying, .errPrecond, 0) := by decide

theorem test_reserved15 :
    (request 0x00000000000000000000000000000000F#132 State.reset).map response =
      some (.uninitialized, .errPrecond, 0) := by decide

/-! ## Framebuffer operations (V2 to V5) -/

/-- S1: offset 2 + 8 * 5 = 42, mask 0x10. -/
theorem test_drawPixel_offset_law :
    (request 0x00000000000000010000001400000005B#132 (panel .busAcquired 128 8 [])).map (fun t => (t.fb, t.status)) =
      some ([(42, 0x10#8)], .ok) := by decide

theorem test_drawPixel_off_keeps_the_other_bits :
    (request 0x00000000000000000000001400000005B#132
      ((panel .busAcquired 128 8 []).withFb [(42, 0xFF#8)])).map (fun t => (t.fb, t.status)) =
      some ([(42, 0xEF#8)], .ok) := by decide

/-- V3 row 1 at the six bytes it touches, on a 20 x 16 block whose first eight bytes are FF. -/
theorem test_clearBlock_clips_at_the_left :
    (request 0x000000080000000500000004FFFFFFFEC#132
      ((panel .busAcquired 20 2 []).withFb ((List.range 8).map fun i => (i, 0xFF#8)))).map (fun t => t.fb) =
      some [(0, 0x0F#8), (1, 0xF0#8), (2, 0x0F#8), (3, 0xF0#8), (4, 0x0F#8), (5, 0xF0#8), (6, 0xFF#8), (7, 0xFF#8)] := by
  decide

/-- V3 row 2 at the last four bytes. -/
theorem test_clearBlock_clips_at_the_right :
    (request 0x0000000A0000000A0000000C00000012C#132
      ((panel .busAcquired 20 2 []).withFb ((List.range 4).map fun i => (36 + i, 0xFF#8)))).map (fun t => t.fb) =
      some [(36, 0xFF#8), (37, 0x0F#8), (38, 0xFF#8), (39, 0x0F#8)] := by decide

theorem test_writeRaw_last_offset :
    (request 0x000000000000000000000027000000256#132 (panel .busAcquired 20 2 [])).map (fun t => (t.fb, t.status)) =
      some ([(39, 0x25#8)], .ok) := by decide

theorem test_writeRaw_at_N_refused :
    (request 0x000000000000000000000028000000126#132 (panel .busAcquired 20 2 [])).map (fun t => (t.fb, t.status)) =
      some ([], .errPrecond) := by decide

theorem test_clear :
    (request 0x000000000000000000000000000000003#132 ((panel .displaying 20 2 []).withFb [(3, 0x81#8)])).map (fun t =>
      (t.fb, response t)) = some ([], (.displaying, .ok, 0)) := by decide

/-! ## Operations that send (V8 to V11) -/

/-- S6: the stream of INIT. -/
theorem test_init_stream :
    (request 0x000000000000000000000000000000001#132 (panel .displaying 20 2 (oks 24))).map (fun t =>
      ((writes t).map Prod.fst, response t)) =
      some ([0xAE#8, 0xD5#8, 0x80#8, 0xA8#8, 0x3F#8, 0xDA#8, 0x12#8, 0xD3#8, 0x00#8, 0x40#8, 0x8D#8, 0x14#8, 0x20#8,
        0x00#8, 0xA1#8, 0xC8#8, 0x81#8, 0x8F#8, 0xD9#8, 0xF1#8, 0xDB#8, 0x40#8, 0xA6#8, 0xAF#8],
        (.deviceInitialized, .ok, 0)) := by decide

/-- V8: third write `Error` in `Displaying`. -/
theorem test_init_third_write_fails :
    (request 0x000000000000000000000000000000001#132 (panel .displaying 20 2 (oks 2 ++ [err]))).map (fun t =>
      (writes t, response t)) =
      some ([(0xAE#8, true), (0xD5#8, true), (0x80#8, false)], (.busAcquired, .errTransport, 0)) := by decide

/-- V9: 17 x 8, blocks of 16 and 1. -/
theorem test_flush_short_last_block :
    (request 0x000000000000000000000000000000002#132
      ((panel .deviceInitialized 17 1 (oks 8)).withFb [(1, 0x81#8), (16, 0xA5#8)])).map (fun t =>
      ((writes t).map Prod.fst, payloads t, response t)) =
      some ([0x21#8, 0x00#8, 0x10#8, 0x22#8, 0x00#8, 0x00#8],
        [[0x00#8, 0x81#8, 0, 0, 0, 0, 0, 0, 0, 0, 0, 0, 0, 0, 0, 0], [0xA5#8]], (.displaying, .ok, 0)) := by decide

/-- V9: third write `Error`. -/
theorem test_flush_third_write_fails :
    (request 0x000000000000000000000000000000002#132 (panel .displaying 128 8 (oks 2 ++ [err]))).map (fun t =>
      (writes t, response t)) =
      some ([(0x21#8, true), (0x00#8, true), (0x7F#8, false)], (.displaying, .errTransport, 0)) := by decide

/-- V10: cleared, then refused, in `BusAcquired`. -/
theorem test_clearFlush_in_busAcquired :
    (request 0x000000000000000000000000000000004#132 ((panel .busAcquired 128 4 []).withFb [(0, 0x81#8)])).map (fun t =>
      (t.fb, t.trace, response t)) = some ([], [], (.busAcquired, .errPrecond, 0)) := by decide

/-- V10: second write `Error`; the clear stays. -/
theorem test_clearFlush_second_write_fails :
    (request 0x000000000000000000000000000000004#132
      ((panel .displaying 128 4 (oks 1 ++ [err])).withFb [(0, 0x81#8)])).map (fun t => (t.fb, writes t, response t)) =
      some ([], [(0x21#8, true), (0x00#8, false)], (.displaying, .errTransport, 0)) := by decide

/-- V11: `A[31:8]` ignored. -/
theorem test_setStartLine_truncates :
    (request 0x000000000000000000000000FFFFFFFF5#132 (panel .busAcquired 128 8 (oks 1))).map (fun t =>
      (t.trace, response t)) =
      some ([⟨.writeByte hnd 0x3C#7 0x00#8 0xFF#8, .ok⟩], (.busAcquired, .ok, 0)) := by decide

theorem test_actScroll :
    (request 0x000000000000000000000000000000007#132 (panel .displaying 128 8 (oks 1))).map writes =
      some [(0x2F#8, true)] := by decide

theorem test_deactScroll :
    (request 0x000000000000000000000000000000008#132 (panel .busAcquired 128 8 (oks 1))).map writes =
      some [(0x2E#8, true)] := by decide

/-- A silent transport leaves the block where it is, and the next step goes on from there (R31, R238). -/
theorem test_init_resumes :
    ((request 0x000000000000000000000000000000001#132 (panel .busAcquired 20 2 (oks 23))).bind fun t =>
      (nextOf (step { t with answers := oks 1 })).map fun u =>
        ([t.busy, u.busy], t.seqIdx, response u)) =
      some ([true, false], some 23#5, (.deviceInitialized, .ok, 0)) := by decide

/-! ## Wire commands (R92, R95) and the names that stop (R97, R98) -/

/-- The commands without argument bytes. -/
theorem test_wire_one_byte_commands :
    ([Instr.displayOff, .displayOn, .normalDisplay, .comScanDec, .activateScroll, .deactivateScroll,
      .setStartLineBase 5#6, .segRemapBase true].map fun i =>
        (nextOf (exec i (panel .busAcquired 20 2 (oks 1)))).map fun t => (writes t).map Prod.fst) =
      [some [0xAE#8], some [0xAF#8], some [0xA6#8], some [0xC8#8], some [0x2F#8], some [0x2E#8], some [0x45#8],
        some [0xA1#8]] := by decide

/-- The commands with one argument byte, at the values of R166. -/
theorem test_wire_two_byte_commands :
    ([Instr.memoryMode 0x00#8, .setContrast 0x8F#8, .chargePump 0x14#8, .setMultiplex 0x3F#8, .setDisplayOffset 0x00#8,
      .setDisplayClockDiv 0x80#8, .setPrecharge 0xF1#8, .setComPins 0x12#8, .setVcomDetect 0x40#8].map fun i =>
        (nextOf (exec i (panel .busAcquired 20 2 (oks 2)))).map fun t => (writes t).map Prod.fst) =
      [some [0x20#8, 0x00#8], some [0x81#8, 0x8F#8], some [0x8D#8, 0x14#8], some [0xA8#8, 0x3F#8], some [0xD3#8, 0x00#8],
        some [0xD5#8, 0x80#8], some [0xD9#8, 0xF1#8], some [0xDA#8, 0x12#8], some [0xDB#8, 0x40#8]] := by decide

/-- The two window commands. -/
theorem test_wire_three_byte_commands :
    ([Instr.columnAddr 0x00#8 0x7F#8, .pageAddr 0x00#8 0x07#8].map fun i =>
        (nextOf (exec i (panel .busAcquired 128 8 (oks 3)))).map fun t => (writes t).map Prod.fst) =
      [some [0x21#8, 0x00#8, 0x7F#8], some [0x22#8, 0x00#8, 0x07#8]] := by decide

/-- A name that is never sent, and an argument constant, are refused by name. -/
theorem test_never_sent_is_refused :
    refusalOf (exec .invertDisplay (panel .busAcquired 20 2 (oks 1))) = some (.neverSent 0xA7#8) ∧
    refusalOf (exec .externalVcc State.reset) = some (.argumentConstant .chargePump 0x01#8) := by decide

/-- The byte image of a data write (R89). -/
theorem test_image_of_a_block :
    (Transaction.writeBlock hnd 0x3C#7 0x40#8 [0x01#8, 0x02#8]).image = [0x40#8, 0x01#8, 0x02#8] ∧
    (Transaction.writeBlock hnd 0x3C#7 0x40#8 [0x01#8, 0x02#8]).portData = some 0x0201#128 ∧
    (Transaction.writeBlock hnd 0x3C#7 0x40#8 [0x01#8, 0x02#8]).portLen = some 2#5 := by decide

/-- An OPEN carries its bus identifier and no payload; the response port carries the response of the step that completes the
operation (R86, R91). -/
theorem test_ports_of_an_open_and_of_a_response :
    (Transaction.openBus (-1)).portBusId = some 0xFFFFFFFF#32 ∧ (Transaction.openBus (-1)).portLen = none ∧
    (let s := { panel .busAcquired 128 8 [] with inbox := [10#132] }
     s.reqValid = true ∧ s.rspValid = true ∧ s.rspStatus = some 0#3 ∧ s.rspValue = some 8#32) ∧
    { State.reset with resetLine := true }.rspValid = false ∧ State.reset.rspValid = false ∧
    { panel .busAcquired 20 2 [] with inbox := [1#132] }.rspValid = false := by decide

/-! ## Witnesses: concrete states and operands that meet the hypotheses of the obligations -/

/-- Geometries at both ends of what a run can have meet the invariant, in each lifecycle state that holds the bus. -/
theorem witness_inv_panel :
    (panel .busAcquired 1 1 []).Inv ∧ (panel .deviceInitialized 17 1 (oks 8)).Inv ∧ (panel .displaying 256 256 []).Inv ∧
      (panel .busAcquired 20 2 []).Inv :=
  ⟨⟨by decide, by decide, by decide, by decide, by decide, by decide, by decide⟩,
   ⟨by decide, by decide, by decide, by decide, by decide, by decide, by decide⟩,
   ⟨by decide, by decide, by decide, by decide, by decide, by decide, by decide⟩,
   ⟨by decide, by decide, by decide, by decide, by decide, by decide, by decide⟩⟩

/-- A block in the middle of INIT, and one in the middle of the data blocks of a FLUSH. -/
def midInit : State := { panel .busAcquired 20 2 (oks 1) with seq := some ⟨.init, 23#5, 0#17⟩ }
def midFlush : State := { panel .displaying 17 1 [err] with seq := some ⟨.flush, 6#5, 16#17⟩ }

theorem witness_inv_busy : midInit.Inv ∧ midFlush.Inv ∧ midInit.busy = true ∧ midFlush.busy = true :=
  ⟨⟨by decide, by decide, by decide, by decide, by decide, by decide, by decide⟩,
   ⟨by decide, by decide, by decide, by decide, by decide, by decide, by decide⟩, rfl, rfl⟩

/-- A state in which FLUSH is permitted and the history shows why. -/
def initialized : State :=
  { panel .deviceInitialized 20 2 (oks 9) with trace := okCommands hnd 0x3C#7 initRom, inbox := [2#132] }

theorem witness_InitHistoryInv : initialized.Inv ∧ initialized.InitHistoryInv ∧ initialized.flushable = true :=
  ⟨⟨by decide, by decide, by decide, by decide, by decide, by decide, by decide⟩,
   ⟨fun _ => ⟨hnd, rfl, [], [], by simp [initialized, panel, State.reset]⟩, by simp [initialized, panel, State.reset]⟩, rfl⟩

theorem witness_ResetLineOnlyBetweenOperations :
    ({ State.reset with resetLine := true }.resetLine = true ∧ { State.reset with resetLine := true }.busy = false) ∧
    ({ midInit with resetLine := true }.resetLine = true ∧ { midInit with resetLine := true }.busy = true) := by decide

theorem witness_StepRunsTheDecodedInstruction :
    (∃ s : State, s.resetLine = false ∧ s.busy = false ∧ s.preload = none ∧
      ∃ w rest, s.inbox = w :: rest ∧ decode (.request w) = .ok .clear ∧ Instr.clear.wf = true) ∧
    (∃ (s : State) (c : Code), s.resetLine = false ∧ s.busy = false ∧ s.preload = some c ∧ decode c = .ok .displayOn ∧
      Instr.displayOn.wf = true) ∧
    (midInit.resetLine = false ∧ midInit.busy = true) ∧
    (State.reset.resetLine = false ∧ State.reset.busy = false ∧ State.reset.preload = none ∧ State.reset.inbox = []) :=
  ⟨⟨{ State.reset with inbox := [3#132] }, rfl, rfl, rfl, 3#132, [], rfl, rfl, rfl⟩,
   ⟨{ State.reset with preload := some (.wire [0xAF#8]) }, .wire [0xAF#8], rfl, rfl, rfl, rfl, rfl⟩, ⟨rfl, rfl⟩,
   ⟨rfl, rfl, rfl, rfl⟩⟩

theorem witness_DecodeOfEncodeIsTheInstruction :
    (Instr.drawPixel (-2147483648) 2147483647 true).wf = true ∧ (Instr.setStartLineBase 63#6).wf = true ∧
    Instr.switchCapVcc.wf = true := by decide

/-- Pairs of words that differ in ignored bits only, one pair per clause. -/
theorem witness_IgnoredOperandBitsDoNotMatter :
    (ReqWord.op 1#132 = ReqWord.op 0xFFFFFFFFFFFFFFFFFFFFFFFFFFFFFFFF1#132 ∧ ReqWord.op 1#132 = 1#4) ∧
    (let w : ReqWord := 0x0000008000000040000000BC000000010#132
     let w' : ReqWord := 0x00000080000000400000003C000000010#132
     w.op = 0#4 ∧ w'.op = 0#4 ∧ w.slotA = w'.slotA ∧ w.slotB.extractLsb' 0 7 = w'.slotB.extractLsb' 0 7 ∧
       w.slotC = w'.slotC ∧ w.slotD = w'.slotD) ∧
    (let w : ReqWord := 0x000000000000000000000000000001455#132
     let w' : ReqWord := 0xF00000000000000000000000000000455#132
     w.op = 5#4 ∧ w'.op = 5#4 ∧ w.slotA.extractLsb' 0 8 = w'.slotA.extractLsb' 0 8) ∧
    (let w : ReqWord := 0x0000000000000000FFFFFFFF000000016#132
     let w' : ReqWord := 0xFFFFFFFFFFFFFFFFFFFFFFFF000001016#132
     w.op = 6#4 ∧ w'.op = 6#4 ∧ w.slotA.extractLsb' 0 8 = w'.slotA.extractLsb' 0 8 ∧ w.slotB = w'.slotB) ∧
    (let w : ReqWord := 0x000000000000000000000007000000019#132
     let w' : ReqWord := 0xFFFFFFFFFFFFFFFF00000007000000019#132
     w.op = 9#4 ∧ w'.op = 9#4 ∧ w.slotA = w'.slotA ∧ w.slotB = w'.slotB) ∧
    (let w : ReqWord := 0x00000000000000010000001400000005B#132
     let w' : ReqWord := 0xDEADBEEF800000000000001400000005B#132
     w.op = 11#4 ∧ w'.op = 11#4 ∧ w.slotA = w'.slotA ∧ w.slotB = w'.slotB ∧ (w.slotC = 0#32 ↔ w'.slotC = 0#32)) ∧
    (let w : ReqWord := 0x000000080000000500000004FFFFFFFEC#132
     w.op = 12#4) := by decide

/-- Corner pixels, and the first and the last bit of the framebuffer. -/
theorem witness_AddressingLaw_and_PixelsAndBitsAreInBijection :
    (panel .busAcquired 20 2 []).inBounds (0 : Nat) (0 : Nat) = true ∧
    (panel .busAcquired 20 2 []).inBounds (19 : Nat) (15 : Nat) = true ∧
    39 < (panel .busAcquired 20 2 []).size ∧ 7 < 8 := by decide

/-- Idle blocks: one not constructed, one constructed, for every operation that sends nothing. -/
theorem witness_idle_uninitialized_and_constructed :
    (State.reset.busy = false ∧ State.reset.lstate = .uninitialized) ∧
    ((panel .busAcquired 20 2 []).busy = false ∧ (panel .busAcquired 20 2 []).lstate ≠ .uninitialized) := by decide

/-- The operation codes the statements start from. -/
theorem witness_operation_codes :
    ReqWord.op 3#132 = 3#4 ∧ ReqWord.op 7#132 = 7#4 ∧ ReqWord.op 8#132 = 8#4 ∧ ReqWord.op 11#132 = 11#4 ∧
    ReqWord.op 14#132 = 14#4 ∧ ReqWord.op 15#132 = 15#4 := by decide

/-- DRAW_PIXEL just outside on each side, and at the last pixel inside. -/
theorem witness_DrawPixelWritesOneBit :
    (∀ p ∈ [((-1 : Int), (0 : Int)), (20, 0), (0, -1), (0, 16)],
      ¬ (0 ≤ p.1 ∧ p.1 < (panel .busAcquired 20 2 []).width.toNat ∧ 0 ≤ p.2 ∧ p.2 < (panel .busAcquired 20 2 []).height.toNat)) ∧
    (0 ≤ (19 : Int) ∧ (19 : Int) < (panel .busAcquired 20 2 []).width.toNat ∧ 0 ≤ (15 : Int) ∧
      (15 : Int) < (panel .busAcquired 20 2 []).height.toNat) := by decide

/-- Two different pixels of one byte. -/
theorem witness_DrawPixelSetThenReadAndNoAliasing :
    (panel .busAcquired 20 2 []).inBounds (0 : Nat) (0 : Nat) = true ∧
    (panel .busAcquired 20 2 []).inBounds (0 : Nat) (7 : Nat) = true ∧ ((0, 7) : Nat × Nat) ≠ (0, 0) := by decide

/-- A pixel inside a rectangle's edge and one outside it, with the byte column outside too. -/
theorem witness_ClearBlockClearsExactlyTheRectangle :
    (panel .busAcquired 20 2 []).inBounds (2 : Nat) (11 : Nat) = true ∧
    (panel .busAcquired 20 2 []).inBounds (3 : Nat) (11 : Nat) = true ∧
    ((-2 : Int) ≤ (2 : Nat) ∧ ((2 : Nat) : Int) < -2 + 5) ∧
    ¬ ((-2 : Int) ≤ ((6 / (panel .busAcquired 20 2 []).pages.toNat : Nat) : Int) ∧
      ((6 / (panel .busAcquired 20 2 []).pages.toNat : Nat) : Int) < -2 + 5) := by decide

/-- WRITE_RAW at the last offset, and just outside on both sides. -/
theorem witness_WriteRawReplacesOneByte :
    (0 ≤ (39 : Int) ∧ (39 : Int) < (panel .busAcquired 20 2 []).size) ∧ ((-1 : Int) < 0) ∧
    (((panel .busAcquired 20 2 []).size : Int) ≤ 40) ∧ (7 < 8) := by decide

theorem witness_WhatIsNotAnError :
    (State.reset.Inv ∧ State.reset.busy = false ∧ State.reset.lstate = .uninitialized) ∧
    ((panel .deviceInitialized 17 1 (oks 8)).Inv ∧ (panel .deviceInitialized 17 1 (oks 8)).lstate ≠ .uninitialized ∧
      (panel .deviceInitialized 17 1 (oks 8)).answers = ⟨false, hnd⟩ :: oks 7) ∧
    ((panel .busAcquired 20 2 (oks 24)).Inv ∧ (panel .busAcquired 20 2 (oks 24)).answers = oks 24 ++ [] ∧
      (oks 24).length = 24 ∧ allOk (oks 24)) :=
  ⟨⟨⟨by decide, by decide, by decide, by decide, by decide, by decide, by decide⟩, rfl, rfl⟩,
   ⟨witness_inv_panel.2.1, by decide, rfl⟩,
   ⟨⟨by decide, by decide, by decide, by decide, by decide, by decide, by decide⟩, rfl, rfl, by decide⟩⟩

/-- A CONSTRUCT that completes with `OK`, and another operation that completes. -/
theorem witness_GeometryIsFixedAtConstruction :
    (∃ t, exec (.construct 1 0x3C#7 8 1) { State.reset with answers := oks 1 } = .next t ∧ t.busy = false ∧ t.status = .ok) ∧
    (∃ t, exec .clear (panel .busAcquired 20 2 []) = .next t) := ⟨⟨_, rfl, rfl, rfl⟩, ⟨_, rfl⟩⟩

/-- The smallest and the largest dimensions. -/
theorem witness_ConstructAcquiresAndZeroFills :
    ∀ d ∈ [((8 : Int), (1 : Int)), (2048, 256)],
      (0 < d.1 ∧ d.1 % 8 = 0 ∧ 0 < d.2 ∧ d.2 ≤ 256 ∧ d.1 / 8 ≤ 256 ∧ d.2 * (d.1 / 8) ≤ State.reset.cfg.fbCapacity) ∧
      { State.reset with answers := oks 1 }.answers = ⟨false, hnd⟩ :: [] := by decide

/-- Dimensions just outside each limit; dimensions that pass with a failing and with a silent transport. -/
theorem witness_ConstructRefusedOrFailedChangesNothing :
    (∀ d ∈ [((0 : Int), (128 : Int)), (12, 128), (64, 0), (64, 257), (2056, 1)],
      ¬ (0 < d.1 ∧ d.1 % 8 = 0 ∧ 0 < d.2 ∧ d.2 ≤ 256 ∧ d.1 / 8 ≤ 256 ∧
        d.2 * (d.1 / 8) ≤ State.reset.cfg.fbCapacity)) ∧
    dimsOk 64 128 State.reset.cfg = true ∧ { State.reset with answers := [err] }.answers = err :: [] ∧ err.error = true ∧
    State.reset.answers = [] := by decide

/-- The three answers a transfer primitive can meet. -/
theorem witness_SendCommandIsOneWriteByte_and_SendDataIsOneWriteBlock :
    (panel .busAcquired 20 2 []).answers = [] ∧
    ((panel .busAcquired 20 2 (oks 1)).answers = ⟨false, hnd⟩ :: [] ∧ (⟨false, hnd⟩ : Answer).error = false) ∧
    ((panel .busAcquired 20 2 [err]).answers = err :: [] ∧ err.error = true ∧
      (panel .busAcquired 20 2 [err]).handle = some hnd) ∧
    List.replicate 1 0x00#8 ∈ (panel .busAcquired 17 1 []).dataBlocks 16 := by decide

/-- Busy blocks: one with an answer to come, one whose data block is due, one whose transport is silent. -/
theorem witness_BusyBlockWaitsOnItsPendingTransaction :
    (midInit.Inv ∧ midInit.busy = true ∧ midInit.resetLine = false ∧ midInit.answers = ⟨false, hnd⟩ :: []) ∧
    (midFlush.Inv ∧ midFlush.answers = err :: []) ∧ { midInit with answers := [] }.answers = [] :=
  ⟨⟨witness_inv_busy.1, rfl, rfl, rfl⟩, ⟨witness_inv_busy.2.1, rfl⟩, rfl⟩

theorem witness_OperationsThatSendNothingAlwaysComplete :
    (panel .displaying 256 256 []).Inv ∧ (panel .displaying 256 256 []).busy = false ∧
    Instr.writeRaw 0x00#8 65536 ∈ [Instr.clear, .writeRaw 0x00#8 65536, .release] :=
  ⟨witness_inv_panel.2.2.1, rfl, by decide⟩

theorem witness_InitSendsExactlyTheFixedSequence :
    let s := panel .busAcquired 20 2 (oks 24)
    s.busy = false ∧ s.lstate ≠ .uninitialized ∧ s.handle = some hnd ∧ s.answers = oks 24 ++ [] ∧ allOk (oks 24) ∧
      (oks 24).length = 24 := by decide

/-- INIT failing at its first and at its last byte. -/
theorem witness_InitFailureFallsBackToBusAcquired :
    (let s := panel .busAcquired 20 2 [err]
     s.busy = false ∧ s.lstate ≠ .uninitialized ∧ s.handle = some hnd ∧ initRom = [] ++ 0xAE#8 :: initRom.drop 1 ∧
       s.answers = [] ++ err :: [] ∧ allOk [] ∧ ([] : List Answer).length = ([] : List Byte).length ∧ err.error = true) ∧
    (let s := panel .displaying 20 2 (oks 23 ++ [err])
     s.busy = false ∧ s.lstate ≠ .uninitialized ∧ s.handle = some hnd ∧ initRom = initRom.take 23 ++ 0xAF#8 :: [] ∧
       s.answers = oks 23 ++ err :: [] ∧ allOk (oks 23) ∧ (oks 23).length = (initRom.take 23).length) := by decide

/-- The last, short block of a framebuffer of 17 bytes. -/
theorem witness_DataBlocksAreTheFramebuffer :
    16 < (panel .busAcquired 17 1 []).size ∧ 1 < ((panel .busAcquired 17 1 []).dataBlocks 0).length ∧
    1 = (panel .busAcquired 17 1 []).size / 16 ∧ 0 < (panel .busAcquired 17 1 []).size / 16 := by decide

theorem witness_FlushSendsWindowsThenFramebuffer :
    (let s := panel .deviceInitialized 17 1 (oks 8)
     s.busy = false ∧ (s.lstate = .deviceInitialized ∨ s.lstate = .displaying) ∧ s.handle = some hnd ∧
       s.answers = oks 8 ++ [] ∧ allOk (oks 8) ∧ (oks 8).length = 6 + (s.size + 15) / 16) ∧
    (let s := panel .displaying 1 1 (oks 8)
     (s.lstate = .deviceInitialized ∨ s.lstate = .displaying) ∧ s.answers = oks 7 ++ oks 1 ∧ allOk (oks 7) ∧
       (oks 7).length = 6 + (s.size + 15) / 16) := by decide

/-- FLUSH refused; failing at its first window byte; failing at its last data block. -/
theorem witness_FlushRefusedOrFailedKeepsTheState :
    ((panel .busAcquired 17 1 []).busy = false ∧ (panel .busAcquired 17 1 []).lstate = .busAcquired) ∧
    (let s := panel .displaying 17 1 [err]
     (s.lstate = .deviceInitialized ∨ s.lstate = .displaying) ∧ s.handle = some hnd ∧
       s.windowCmds = [] ++ 0x21#8 :: s.windowCmds.drop 1 ∧ s.answers = [] ++ err :: [] ∧ allOk [] ∧ err.error = true) ∧
    (let s := panel .deviceInitialized 17 1 (oks 7 ++ [err])
     (s.lstate = .deviceInitialized ∨ s.lstate = .displaying) ∧ s.handle = some hnd ∧
       s.dataBlocks 0 = [List.replicate 16 0x00#8] ++ [0x00#8] :: [] ∧ s.answers = oks 7 ++ err :: [] ∧ allOk (oks 7) ∧
       (oks 7).length = 6 + [List.replicate 16 0x00#8].length ∧ err.error = true) := by decide

/-- CLEAR_FLUSH in each lifecycle state, complete, and failing at its second window byte. -/
theorem witness_ClearFlushClearsThenFlushes :
    (State.reset.busy = false ∧ State.reset.lstate = .uninitialized) ∧ (panel .busAcquired 17 1 []).lstate = .busAcquired ∧
    (let s := panel .deviceInitialized 17 1 (oks 8)
     (s.lstate = .deviceInitialized ∨ s.lstate = .displaying) ∧ s.handle = some hnd ∧ s.answers = oks 8 ++ [] ∧
       allOk (oks 8) ∧ (oks 8).length = 6 + (s.size + 15) / 16) ∧
    (let s := panel .displaying 17 1 (oks 1 ++ [err])
     (s.lstate = .deviceInitialized ∨ s.lstate = .displaying) ∧ s.windowCmds = [0x21#8] ++ 0x00#8 :: s.windowCmds.drop 2 ∧
       s.answers = oks 1 ++ err :: [] ∧ allOk (oks 1) ∧ (oks 1).length = [0x21#8].length ∧ err.error = true) ∧
    (let s := panel .displaying 17 1 (oks 7 ++ [err])
     1 < (s.size + 15) / 16 ∧ s.answers = oks 7 ++ err :: [] ∧ allOk (oks 7) ∧ (oks 7).length = 6 + 1) := by decide

/-- Single commands: an answer of each kind, an offset at the end of the caller's duty. -/
theorem witness_SetStartLine_and_ScrollSwitches :
    (let s := panel .busAcquired 20 2 (oks 1)
     s.busy = false ∧ s.lstate ≠ .uninitialized ∧ s.handle = some hnd ∧ s.answers = ⟨false, hnd⟩ :: []) ∧
    (panel .busAcquired 20 2 [err]).answers = err :: [] ∧ (63#8).toNat ≤ Config.maxStartLine := by decide

/-- A wire command of each length, complete, and failing at its first and at its last byte. -/
theorem witness_WireCommands :
    (∀ in_ ∈ [(Instr.displayOn, 1), (.setContrast 0x8F#8, 2), (.pageAddr 0x00#8 0xFF#8, 3)],
      let s := panel .busAcquired 20 2 (oks in_.2)
      isSentCommand in_.1 = true ∧ s.busy = false ∧ s.lstate ≠ .uninitialized ∧ s.handle = some hnd ∧
        s.answers = oks in_.2 ++ [] ∧ allOk (oks in_.2) ∧ (oks in_.2).length = (encode in_.1).wireBytes.length) ∧
    ((encode .displayOn).wireBytes = [] ++ 0xAF#8 :: [] ∧ (panel .busAcquired 20 2 [err]).answers = [] ++ err :: []) ∧
    ((encode (.setContrast 0x8F#8)).wireBytes = [0x81#8] ++ 0x8F#8 :: [] ∧
      (panel .busAcquired 20 2 (oks 1 ++ [err])).answers = oks 1 ++ err :: [] ∧ allOk (oks 1)) := by decide

theorem witness_UninitializedRefusesEverythingElse :
    State.reset.busy = false ∧ State.reset.lstate = .uninitialized ∧ isRequest .flush = true ∧
    isSentCommand .displayOn = true ∧ Instr.flush ≠ .release ∧ ∀ b a h w, Instr.flush ≠ .construct b a h w := by
  refine ⟨by decide, by decide, by decide, by decide, by decide, ?_⟩
  intro b a h w hc
  cases hc

theorem witness_BusyBlockAcceptsNothing :
    midInit.busy = true ∧ (isRequest .clear = true ∨ isSentCommand .clear = true) ∧ ∃ t, step midInit = .next t :=
  ⟨rfl, by decide, _, rfl⟩

/-- An operation refused, one that failed on the wire, one that completed. -/
theorem witness_ErrorsLeave_Statuses_OnlyTheNamed :
    (∃ t, exec .flush State.reset = .next t ∧ t.busy = false ∧ t.status ≠ .ok) ∧
    (∃ t, exec .init (panel .displaying 20 2 [err]) = .next t ∧ t.busy = false ∧ t.status = .errTransport) ∧
    (∃ t, exec (.construct 1 0x3C#7 8 1) { State.reset with answers := [err] } = .next t ∧ t.busy = false ∧
      t.status = .errResource) ∧
    (∃ t, exec .getPages (panel .busAcquired 20 2 []) = .next t ∧ t.busy = false ∧ t.rval ≠ 0#32) :=
  ⟨⟨_, rfl, rfl, by decide⟩, ⟨_, rfl, rfl, rfl⟩, ⟨_, rfl, rfl, rfl⟩, ⟨_, rfl, rfl, by decide⟩⟩

/-- Steps from states of a run, one into `Displaying`. -/
theorem witness_LifecycleTransitions_and_the_step_invariants :
    (∃ t, State.reset.Inv ∧ step State.reset = .next t) ∧
    (∃ t, (panel .busAcquired 20 2 []).Inv ∧ step (panel .busAcquired 20 2 []) = .next t) ∧
    (∃ t, initialized.Inv ∧ initialized.InitHistoryInv ∧ (∀ e ∈ initialized.trace, e.wellFormed = true) ∧
      initialized.resetLine = false ∧ initialized.preload = none ∧ step initialized = .next t ∧ t.lstate = .displaying) :=
  ⟨⟨_, ⟨by decide, by decide, by decide, by decide, by decide, by decide, by decide⟩, rfl⟩,
   ⟨_, witness_inv_panel.2.2.2, rfl⟩,
   ⟨_, witness_InitHistoryInv.1, witness_InitHistoryInv.2.1, by decide, rfl, rfl, rfl, rfl⟩⟩

/-- A FLUSH in progress whose next answer is an error, and one that goes on waiting. -/
theorem witness_NothingChangesUnderAnOperationInProgress :
    midFlush.seq = some ⟨.flush, 6#5, 16#17⟩ ∧ (∀ b a h w, Job.flush ≠ .construct b a h w) ∧
    (∃ t, step midFlush = .next t) ∧ (∃ t, step { midFlush with answers := [] } = .next t ∧ t.busy = true) := by
  refine ⟨rfl, ?_, ⟨_, rfl⟩, ⟨_, rfl, rfl⟩⟩
  intro b a h w hc
  cases hc

theorem witness_TransactionsAreIssuedInOrder :
    (∃ t, midFlush.resetLine = false ∧ step midFlush = .next t ∧ ∃ e ∈ t.trace, e.reply = .error) ∧
    (∃ t, step { midInit with answers := [] } = .next t ∧ t.busy = true) :=
  ⟨⟨_, rfl, rfl, _, List.mem_singleton_self _, rfl⟩, ⟨_, rfl, rfl⟩⟩

/-- A state with a request presented and answers enough for any operation. -/
theorem witness_EveryRequestRunsAndCompletesOnceAnswered :
    let s := { panel .deviceInitialized 17 1 (oks 4102) with inbox := [2#132] }
    s.Inv ∧ s.resetLine = false ∧ s.preload = none ∧ 4102 ≤ s.answers.length :=
  ⟨⟨by decide, by decide, by decide, by decide, by decide, by decide, by decide⟩, rfl, rfl,
   Nat.le_of_eq List.length_replicate.symm⟩

/-- A presented OPEN, command write and short data write. -/
theorem witness_PresentedTransactionIsTheBlocksOwn :
    (midInit.Inv ∧ midInit.pendingTx = some (.writeByte hnd 0x3C#7 0x00#8 0xAF#8)) ∧
    (midFlush.Inv ∧ midFlush.pendingTx = some (.writeBlock hnd 0x3C#7 0x40#8 [0x00#8])) ∧
    (let s := { State.reset with seq := some ⟨.construct 1 0x3C#7 8 1, 0#5, 0#17⟩ }
     s.Inv ∧ s.pendingTx = some (.openBus 1)) :=
  ⟨⟨witness_inv_busy.1, by decide⟩, ⟨witness_inv_busy.2.1, by decide⟩,
   ⟨⟨by decide, by decide, by decide, by decide, by decide, by decide, by decide⟩, rfl⟩⟩

/-- The answers of a FLUSH coming in two parts. -/
theorem witness_AtomicAndStepwiseReadingsAgree :
    (panel .deviceInitialized 17 1 (oks 7)).Inv ∧ (panel .deviceInitialized 17 1 (oks 7)).busy = false ∧
    (panel .deviceInitialized 17 1 (oks 7)).answers = oks 7 ∧
    ∃ t, exec .flush (panel .deviceInitialized 17 1 (oks 7)) = .next t ∧ t.busy = true :=
  ⟨⟨by decide, by decide, by decide, by decide, by decide, by decide, by decide⟩, rfl, rfl, _, rfl, rfl⟩

end Sys2Proof.Tests
end

/-! # The construction registers (10_state.md R22 to R25) -/

namespace Sys2Proof.Machine

/-! ## What holds of the next state of a result -/

/-- `P` holds of the next state, if the result has one. -/
def OnNext (P : State → Prop) : Result → Prop
  | .next t => P t
  | .fault _ => True
  | .refused _ => True

theorem OnNext.of_eq {P : State → Prop} {r : Result} {t : State} (h : OnNext P r) (ht : r = .next t) : P t := by
  subst ht
  exact h

section
variable {P : State → Prop} {s : State} {op : State → Result}

@[simp] theorem onNext_next : OnNext P (.next s) ↔ P s := Iff.rfl

@[simp] theorem onNext_fault (f : Fault) : OnNext P (.fault f) := trivial

@[simp] theorem onNext_refused (r : Refusal) : OnNext P (.refused r) := trivial

/-- An operation guarded by `BUSY`: the busy block is unchanged, the idle one runs it (R30). -/
theorem onNext_whenIdle (hs : P s) (hop : OnNext P (op s)) : OnNext P (whenIdle s op) := by
  cases hb : s.busy with
  | true => rwa [whenIdle_busy hb, onNext_next]
  | false => rwa [whenIdle_idle hb]

/-- An operation guarded by the common state check: the refusal or the operation (R120). -/
theorem onNext_whenConstructed (hs : P (s.respond .errPrecond 0#32)) (hop : OnNext P (op s)) :
    OnNext P (whenConstructed s op) := by
  cases hc : s.constructed with
  | true => rwa [whenConstructed_pass hc]
  | false => simpa [whenConstructed, hc] using hs

end

/-! ## The construction registers and the updates that leave them alone -/

/-- The registers that CONSTRUCT fills and RELEASE empties, beside the framebuffer and `LSTATE` (R22 to R25). -/
@[ext] structure Construction where
  handle : Option Handle
  devAddr : BitVec 7
  width : BitVec 9
  height : BitVec 12
  pages : BitVec 9

/-- The construction registers of a state. -/
def State.construction (s : State) : Construction := ⟨s.handle, s.devAddr, s.width, s.height, s.pages⟩

theorem State.construction_eq_iff {s t : State} : t.construction = s.construction ↔
    t.handle = s.handle ∧ t.devAddr = s.devAddr ∧ t.width = s.width ∧ t.height = s.height ∧ t.pages = s.pages :=
  Construction.ext_iff

section
variable (s : State)

@[simp] theorem State.construction_withFb (m : Memory) : (s.withFb m).construction = s.construction := rfl
@[simp] theorem State.construction_respond (st : Status) (v : Slot) :
    (s.respond st v).construction = s.construction := rfl
@[simp] theorem State.construction_setLState (l : LState) : (s.setLState l).construction = s.construction := rfl
@[simp] theorem State.construction_accepted (job : Job) : (s.accepted job).construction = s.construction := rfl
@[simp] theorem State.construction_logged (t : Transaction) (a : Answer) (rest : List Answer) :
    (s.logged t a rest).construction = s.construction := rfl
@[simp] theorem State.construction_ranCommands (h : Handle) (bytes : List Byte) (rest : List Answer) :
    (s.ranCommands h bytes rest).construction = s.construction := rfl
@[simp] theorem State.construction_ranBlocks (h : Handle) (blocks : List (List Byte)) (rest : List Answer) :
    (s.ranBlocks h blocks rest).construction = s.construction := rfl
end

/-- A byte write that succeeds changes the framebuffer only (R13). -/
theorem State.memWrite_ok {s t : State} {i : Nat} {v : Byte} (h : s.memWrite i v = .ok t) : ∃ m, t = s.withFb m := by
  unfold State.memWrite at h
  split at h
  · exact ⟨_, (Except.ok.inj h).symm⟩
  · cases h

/-- A pixel write that succeeds changes the framebuffer at most (R122). -/
theorem State.drawPixel_ok {s t : State} {x y : Int} {on : Bool} (h : s.drawPixel x y on = .ok t) :
    ∃ m, t = s.withFb m := by
  unfold State.drawPixel at h
  split at h
  · exact State.memWrite_ok h
  · exact ⟨s.fb, (Except.ok.inj h).symm⟩

/-! ## The sequencer keeps the construction registers -/

/-- The sequencer keeps the construction registers where both ends of the operation do. -/
theorem sendAll_construction {onOk onError : State → State} (hok : ∀ u, (onOk u).construction = u.construction)
    (herr : ∀ u, (onError u).construction = u.construction) (cmds : List Byte) (blocks : List (List Byte)) (s : State) :
    OnNext (fun t => t.construction = s.construction) (sendAll cmds blocks onOk onError s) := by
  cases hh : s.handle with
  | none => simp [sendAll, hh]
  | some h =>
    rcases sendAll_cases hh cmds blocks onOk onError with
      ⟨_, _, _, -, -, -, -, -, hr⟩ | ⟨_, _, _, _, _, _, -, -, -, -, -, hr⟩ |
      ⟨_, _, _, _, _, _, _, -, -, -, -, -, -, -, hr⟩ | ⟨_, _, _, -, -, -, hr⟩ | ⟨_, _, _, _, _, -, -, -, -, -, -, hr⟩ <;>
    simp [hr, hok, herr]

/-- An operation in progress other than CONSTRUCT keeps the construction registers. -/
theorem resume_construction {s : State} {p : Position} (hs : s.seq = some p)
    (hp : ∀ b a h w, p.job ≠ .construct b a h w) :
    OnNext (fun t => t.construction = s.construction) (resume s) := by
  obtain ⟨job, idx, ptr⟩ := p
  cases job with
  | construct b a h w => exact absurd rfl (hp b a h w)
  | init | flush | clearFlush | command | wire =>
    simp only [resume, hs]
    exact sendAll_construction (by simp) (by simp) _ _ s

/-- An operation other than CONSTRUCT that is accepted keeps the construction registers. -/
theorem start_construction {job : Job} (hj : ∀ b a h w, job ≠ .construct b a h w) (s : State) :
    OnNext (fun t => t.construction = s.construction) (start job s) :=
  resume_construction (State.accepted_seq s job) hj

/-- A sending operation behind the two common guards keeps the construction registers. -/
theorem guardedStart_construction {job : Job} (hj : ∀ b a h w, job ≠ .construct b a h w) (s : State) :
    OnNext (fun t => t.construction = s.construction) (whenIdle s fun s => whenConstructed s (start job)) :=
  onNext_whenIdle rfl (onNext_whenConstructed rfl (start_construction hj s))

/-! ## The instructions that keep the construction registers -/

/-- An operation that answers at once keeps the construction registers where its state update does. -/
theorem idleNext_construction {f : State → State} (hf : ∀ u, (f u).construction = u.construction) (s : State) :
    OnNext (fun t => t.construction = s.construction) (whenIdle s fun s => .next (f s)) :=
  onNext_whenIdle rfl (onNext_next.2 (hf s))

/-- An operation that answers at once behind both common guards keeps the construction registers where its state update does. -/
theorem guardedNext_construction {f : State → State} (hf : ∀ u, (f u).construction = u.construction) (s : State) :
    OnNext (fun t => t.construction = s.construction) (whenIdle s fun s => whenConstructed s fun s => .next (f s)) :=
  onNext_whenIdle rfl (onNext_whenConstructed rfl (onNext_next.2 (hf s)))

theorem execFlush_construction (s : State) : OnNext (fun t => t.construction = s.construction) (execFlush s) := by
  refine onNext_whenIdle rfl ?_
  split
  · exact start_construction (fun _ _ _ _ hc => by cases hc) s
  · simp

theorem execClearFlush_construction (s : State) :
    OnNext (fun t => t.construction = s.construction) (execClearFlush s) := by
  refine onNext_whenIdle rfl (onNext_whenConstructed rfl ?_)
  split
  · exact start_construction (fun _ _ _ _ hc => by cases hc) s.zeroFill
  · simp

theorem execDrawPixel_construction (x y : Int) (on : Bool) (s : State) :
    OnNext (fun t => t.construction = s.construction) (execDrawPixel x y on s) := by
  refine onNext_whenIdle rfl (onNext_whenConstructed rfl ?_)
  split
  next hd =>
    obtain ⟨m, rfl⟩ := State.drawPixel_ok hd
    simp
  next => simp

theorem execWriteRaw_construction (v : Byte) (o : Int) (s : State) :
    OnNext (fun t => t.construction = s.construction) (execWriteRaw v o s) := by
  refine onNext_whenIdle rfl (onNext_whenConstructed rfl ?_)
  split
  · simp
  · split
    next hw =>
      obtain ⟨m, rfl⟩ := State.memWrite_ok hw
      simp
    next => simp

/-- No instruction but CONSTRUCT and RELEASE writes a construction register (R22 to R25). -/
theorem exec_construction {i : Instr} (hc : ∀ b a h w, i ≠ .construct b a h w) (hr : i ≠ .release) (s : State) :
    OnNext (fun t => t.construction = s.construction) (exec i s) := by
  cases i with
  | construct b a h w => exact absurd rfl (hc b a h w)
  | release => exact absurd rfl hr
  | init | setStartLine | actScroll | deactScroll => exact guardedStart_construction (fun _ _ _ _ hj => by cases hj) s
  | flush => exact execFlush_construction s
  | clearFlush => exact execClearFlush_construction s
  | drawPixel x y on => exact execDrawPixel_construction x y on s
  | writeRaw v o => exact execWriteRaw_construction v o s
  | clear | clearBlock | getPages | scrollCfg =>
    exact guardedNext_construction (by simp) s
  | reserved14 | reserved15 => exact idleNext_construction (f := (State.raiseError · .errPrecond)) (by simp) s
  | memoryMode | columnAddr | pageAddr | deactivateScroll | activateScroll | setStartLineBase | setContrast | chargePump
  | segRemapBase | normalDisplay | setMultiplex | displayOff | displayOn | comScanDec | setDisplayOffset
  | setDisplayClockDiv | setPrecharge | setComPins | setVcomDetect =>
    exact guardedStart_construction (fun _ _ _ _ hj => by cases hj) s
  | setLowColumn | setHighColumn | rightHorizontalScroll | leftHorizontalScroll | verticalAndRightHorizontalScroll
  | verticalAndLeftHorizontalScroll | setVerticalScrollArea | displayAllOnResume | displayAllOn | invertDisplay
  | comScanInc | memoryModeVert | memoryModePage | externalVcc | switchCapVcc => exact onNext_refused _

/-! ## CONSTRUCT -/

/-- `DimsOk` with the two limits of D6 as numbers (R151). -/
theorem dimsOk_iff {height width : Int} {cfg : Config} : dimsOk height width cfg = true ↔
    0 < height ∧ height % 8 = 0 ∧ 0 < width ∧ width ≤ 256 ∧ height / 8 ≤ 256 ∧
      width * (height / 8) ≤ cfg.fbCapacity := by
  simp [dimsOk]

/-- Narrowing dimensions that pass the check into the registers loses nothing (R24, R25). -/
theorem toNat_ofInt_of_dimsOk {height width : Int} {cfg : Config} (h : dimsOk height width cfg = true) :
    ((BitVec.ofInt 9 width).toNat : Int) = width ∧ ((BitVec.ofInt 12 height).toNat : Int) = height ∧
      ((BitVec.ofInt 9 (height / 8)).toNat : Int) = height / 8 := by
  obtain ⟨hpos, hmod, wpos, wmax, pmax, -⟩ := dimsOk_iff.1 h
  simp only [BitVec.toNat_ofInt]
  omega

/-- Every outcome of CONSTRUCT from its OPEN on: waiting for the answer, the bus not opened, constructed (R150, R152). -/
theorem openBus_cases (busId : Int) (addr : BitVec 7) (height width : Int) (s : State) :
    (s.answers = [] ∧ openBus busId addr height width s = .next s) ∨
    (∃ a rest, s.answers = a :: rest ∧ a.error = true ∧
      openBus busId addr height width s = .next ((s.logged (.openBus busId) a rest).respond .errResource 0#32)) ∨
    (∃ a rest, s.answers = a :: rest ∧ a.error = false ∧
      openBus busId addr height width s =
        .next (((s.logged (.openBus busId) a rest).constructAs a.handle addr height width).respond .ok 0#32)) := by
  cases ha : s.answers with
  | nil => exact .inl ⟨rfl, by simp [openBus, tx_nil ha]⟩
  | cons a rest =>
    cases he : a.error with
    | true => exact .inr (.inl ⟨a, rest, rfl, he, by simp [openBus, tx_cons ha, he]⟩)
    | false => exact .inr (.inr ⟨a, rest, rfl, he, by simp [openBus, tx_cons ha, he]⟩)

/-- CONSTRUCT of an idle block: refused with `ERR_PRECOND`, or accepted with dimensions that pass the check and run from
its OPEN on (R150, R151, R157). -/
theorem execConstruct_cases {s : State} (hb : s.busy = false) (busId : Int) (addr : BitVec 7) (height width : Int) :
    (¬ (s.lstate = .uninitialized ∧ dimsOk height width s.cfg = true) ∧
      execConstruct busId addr height width s = .next (s.respond .errPrecond 0#32)) ∨
    (s.lstate = .uninitialized ∧ dimsOk height width s.cfg = true ∧
      execConstruct busId addr height width s =
        openBus busId addr height width (s.accepted (.construct busId addr height width))) := by
  by_cases hl : s.lstate = .uninitialized
  · cases hd : dimsOk height width s.cfg with
    | true => exact .inr ⟨hl, rfl, by simp [execConstruct, whenIdle_idle hb, State.constructed, hl, hd, start, resume]⟩
    | false => exact .inl ⟨by simp, by simp [execConstruct, whenIdle_idle hb, hd]⟩
  · exact .inl ⟨by simp [hl], by simp [execConstruct, whenIdle_idle hb, State.constructed, hl]⟩

/-- A CONSTRUCT that completes with `OK` had dimensions that pass the check and wrote them into the registers (R150). -/
theorem execConstruct_ok {s t : State} {busId : Int} {addr : BitVec 7} {height width : Int} (hb : s.busy = false)
    (h : execConstruct busId addr height width s = .next t) (ht : t.busy = false) (hok : t.status = .ok) :
    dimsOk height width s.cfg = true ∧ t.width = BitVec.ofInt 9 width ∧ t.height = BitVec.ofInt 12 height ∧
      t.pages = BitVec.ofInt 9 (height / 8) := by
  rcases execConstruct_cases hb busId addr height width with ⟨-, hx⟩ | ⟨-, hd, hx⟩
  · cases hx.symm.trans h
    cases hok
  · rcases openBus_cases busId addr height width (s.accepted (.construct busId addr height width)) with
      ⟨-, ho⟩ | ⟨a, rest, -, -, ho⟩ | ⟨a, rest, -, -, ho⟩ <;> cases (hx.trans ho).symm.trans h
    case inr.inl => cases ht
    case inr.inr.inl => cases hok
    case inr.inr.inr => exact ⟨hd, rfl, rfl, rfl⟩

/-- Settles O20: a CONSTRUCT that succeeds passed the dimension check, so the registers hold the operands exactly; and no
other instruction but RELEASE writes a construction register. -/
theorem geometryIsFixedAtConstruction : Obligations.GeometryIsFixedAtConstruction := by
  intro i s t hb h
  constructor
  · rintro b a height width rfl ht hok
    obtain ⟨hd, hw, hh, hp⟩ := execConstruct_ok hb h ht hok
    obtain ⟨width_eq, height_eq, pages_eq⟩ := toNat_ofInt_of_dimsOk hd
    obtain ⟨hpos, hmod, wpos, wmax, pmax, -⟩ := dimsOk_iff.1 hd
    rw [← hw] at width_eq
    rw [← hh] at height_eq
    rw [← hp] at pages_eq
    omega
  · intro hc hr
    obtain ⟨-, -, hw, hh, -⟩ := State.construction_eq_iff.1 ((exec_construction hc hr s).of_eq h)
    exact ⟨hw, hh⟩

end Sys2Proof.Machine

/-! # The addressing law (20_memory.md R51 to R53) -/

namespace Sys2Proof.Machine

/-- The height is eight rows per page, in every lifecycle state: both are 0 while `Uninitialized` (R27). -/
theorem State.Inv.height_eq {s : State} (hs : s.Inv) : s.height.toNat = 8 * s.pages.toNat := by
  by_cases hl : s.lstate = .uninitialized
  · obtain ⟨-, hheight, hpages⟩ := hs.lifecycle.1 hl
    simp [hheight, hpages]
  · obtain ⟨-, -, -, -, hheight, -⟩ := hs.geometry hl
    exact hheight

/-- A pixel with natural coordinates is in bounds exactly when both lie below the extents (R51). -/
theorem State.inBounds_natCast {s : State} {x y : Nat} :
    s.inBounds x y = true ↔ x < s.width.toNat ∧ y < s.height.toNat := by
  simp [State.inBounds]

/-- The mask of a row is the power of two of its bit (R52). -/
theorem pixelMask_eq_twoPow (y : Nat) : pixelMask y = BitVec.ofNat 8 (2 ^ (y % 8)) := by
  apply BitVec.eq_of_toNat_eq
  simp [pixelMask, Nat.one_shiftLeft]

section
variable {s : State} {x y i b : Nat}

/-- The page of an in-bounds row is one of the pages (R52). -/
theorem State.page_lt (hs : s.Inv) (hy : y < s.height.toNat) : y / 8 < s.pages.toNat := by
  rw [hs.height_eq] at hy
  omega

/-- A page of a column of the display lies in the framebuffer (R50, R52). -/
theorem State.pixelOffset_lt_size (hx : x < s.width.toNat) (hp : y / 8 < s.pages.toNat) :
    s.pixelOffset x y < s.size :=
  calc y / 8 + s.pages.toNat * x
      < s.pages.toNat + s.pages.toNat * x := Nat.add_lt_add_right hp _
    _ = s.pages.toNat * (x + 1) := by rw [Nat.mul_succ, Nat.add_comm]
    _ ≤ s.pages.toNat * s.width.toNat := Nat.mul_le_mul_left _ hx
    _ = s.size := Nat.mul_comm _ _

/-- The column of a pixel's byte (R52). -/
theorem State.pixelOffset_div (hp : y / 8 < s.pages.toNat) : s.pixelOffset x y / s.pages.toNat = x := by
  rw [State.pixelOffset, Nat.add_mul_div_left _ _ (Nat.zero_lt_of_lt hp), Nat.div_eq_of_lt hp, Nat.zero_add]

/-- The page of a pixel's byte (R52). -/
theorem State.pixelOffset_mod (hp : y / 8 < s.pages.toNat) : s.pixelOffset x y % s.pages.toNat = y / 8 := by
  rw [State.pixelOffset, Nat.add_mul_mod_self_left, Nat.mod_eq_of_lt hp]

/-- The pixel of bit `b` of byte `i` lies in byte `i` (R52). -/
theorem State.pixelOffset_inverse (hb : b < 8) :
    s.pixelOffset (i / s.pages.toNat) (8 * (i % s.pages.toNat) + b) = i := by
  have hpage : (8 * (i % s.pages.toNat) + b) / 8 = i % s.pages.toNat := by omega
  rw [State.pixelOffset, hpage, Nat.mod_add_div]

/-- The pixel of a bit of a framebuffer byte is in bounds (R51, R52). -/
theorem State.inBounds_inverse (hs : s.Inv) (hi : i < s.size) (hb : b < 8) :
    s.inBounds (i / s.pages.toNat : Nat) (8 * (i % s.pages.toNat) + b : Nat) = true := by
  have hcol : i / s.pages.toNat < s.width.toNat := Nat.div_lt_of_lt_mul (Nat.mul_comm _ _ ▸ hi)
  have hpage : i % s.pages.toNat < s.pages.toNat :=
    Nat.mod_lt _ (Nat.pos_of_mul_pos_left (Nat.zero_lt_of_lt hi))
  exact State.inBounds_natCast.2 ⟨hcol, by rw [hs.height_eq]; omega⟩

end

/-- Settles O11: an in-bounds row lies in one of the pages, so quotient and remainder of the offset by the number of pages
give column and page back; and the quotient and remainder of any framebuffer offset are an in-bounds column and page. -/
theorem addressingLaw : Obligations.AddressingLaw := by
  intro s hs
  constructor
  · intro x y hxy
    obtain ⟨hx, hy⟩ := State.inBounds_natCast.1 hxy
    have hp := State.page_lt hs hy
    have hrow : 8 * (s.pixelOffset x y % s.pages.toNat) + y % 8 = y := by
      rw [State.pixelOffset_mod hp, Nat.div_add_mod]
    exact ⟨hp, rfl, State.pixelOffset_lt_size hx hp, pixelMask_eq_twoPow y, State.pixelOffset_div hp, hrow⟩
  · intro i b hi hb
    exact ⟨State.inBounds_inverse hs hi hb, State.pixelOffset_inverse hb, by omega⟩

end Sys2Proof.Machine

/-! # FLUSH (44_flush_and_commands.md R180 to R182) -/

namespace Sys2Proof.Machine

/-! ## The blocks of a flush -/

/-- Block `k` from an offset on: 16 bytes, or what is left (R182). -/
theorem State.dataBlocks_getElem? (s : State) {ptr k : Nat} (hk : k < (s.dataBlocks ptr).length) :
    (s.dataBlocks ptr)[k]? = some (s.memRead (ptr + 16 * k) (min 16 (s.size - (ptr + 16 * k)))) := by
  rw [State.dataBlocks_length] at hk
  simp [State.dataBlocks, hk]

/-- The blocks from an offset on carry, in order, the framebuffer bytes from there on (R66, R182). -/
theorem State.dataBlocks_flatten (s : State) (ptr : Nat) :
    (s.dataBlocks ptr).flatten = s.memRead ptr (s.size - ptr) := by
  by_cases hend : s.size ≤ ptr
  · rw [State.dataBlocks_end s hend, Nat.sub_eq_zero_of_le hend]
    rfl
  · rw [State.dataBlocks_step s (Nat.lt_of_not_le hend), List.flatten_cons, State.dataBlocks_flatten s (ptr + 16)]
    by_cases hlast : s.size ≤ ptr + 16
    · rw [Nat.min_eq_right (by omega), Nat.sub_eq_zero_of_le hlast]
      exact List.append_nil _
    · rw [Nat.min_eq_left (by omega), State.memRead_append]
      congr 1
      omega
termination_by s.size - ptr

/-! ## The operation -/

/-- A FLUSH that is permitted runs the window commands and the blocks from their beginning on (R180). -/
theorem exec_flush_permitted {s : State} (hb : s.busy = false) (hf : s.flushable = true) :
    exec .flush s =
      sendAll s.windowCmds (s.dataBlocks 0) State.flushDone State.transportFailed (s.accepted .flush) := by
  change execFlush s = _
  rw [execFlush, whenIdle_idle hb, if_pos hf]
  rfl

/-- The windows and the blocks of a flush, every write answered `Ok`: all of them logged in order, `Displaying`, response
`OK` (R180, R184). -/
theorem sendFlush_ok (job : Job) {s : State} {h : Handle} {as rest : List Answer} (hh : s.handle = some h)
    (ha : s.answers = as ++ rest) (hok : allOk as) (hl : as.length = 6 + (s.size + 15) / 16) :
    sendAll s.windowCmds (s.dataBlocks 0) State.flushDone State.transportFailed (s.accepted job) =
      .next ((s.setLState .displaying).completed .ok 0#32
        (okCommands h s.devAddr s.windowCmds ++ okBlocks h s.devAddr (s.dataBlocks 0)) rest) := by
  have hsplit : (s.accepted job).answers = as.take 6 ++ (as.drop 6 ++ rest) := by
    rw [State.accepted_answers, ha, ← List.append_assoc, List.take_append_drop]
  have hcmds : (as.take 6).length = s.windowCmds.length := by
    simp only [List.length_take, hl, State.windowCmds, List.length_cons, List.length_nil]
    omega
  have hblocks : (as.drop 6).length = (s.dataBlocks 0).length := by
    rw [List.length_drop, hl, State.dataBlocks_length]
    omega
  rw [sendAll_ok (s := s.accepted job) hh hsplit (fun a ha => hok a (List.mem_of_mem_take ha))
    (fun a ha => hok a (List.mem_of_mem_drop ha)) hcmds hblocks]
  simp [State.completed, State.ranCommands, State.ranBlocks, State.respond, State.setLState, State.accepted]

/-- Settles O34: the blocks are those of the sequencer from offset 0 on. -/
theorem flushSendsWindowsThenFramebuffer : Obligations.FlushSendsWindowsThenFramebuffer := by
  intro s h as rest hb hl hh ha hok hlen
  have hf : s.flushable = true := decide_eq_true hl
  refine ⟨s.dataBlocks 0, State.dataBlocks_flatten s 0, State.dataBlocks_length s 0, fun k hk => ⟨?_, ?_⟩, ?_⟩
  · simpa using State.dataBlocks_getElem? s hk
  · rw [State.dataBlocks_length] at hk
    omega
  · rw [exec_flush_permitted hb hf, sendFlush_ok .flush hh ha hok hlen, State.completed, ← List.append_assoc]
    rfl

end Sys2Proof.Machine

/-! # CLEAR and DRAW_PIXEL (40_bitmap_ops.md R120 to R122) -/

namespace Sys2Proof.Machine

/-! ## CLEAR -/

/-- A request with operation code 3 is CLEAR (R82). -/
theorem decode_clear {w : ReqWord} (hw : w.op = 3#4) : decode (.request w) = .ok .clear := by
  simp [decode, decodeRequest, hw]

theorem exec_clear_uninitialized {s : State} (hb : s.busy = false) (hl : s.lstate = .uninitialized) :
    exec .clear s = .next (s.respond .errPrecond 0#32) := by
  change execClear s = _
  rw [execClear, whenIdle_idle hb, whenConstructed_uninitialized hl]

/-- CLEAR of an idle constructed block empties the framebuffer and answers `OK` (R121). -/
theorem exec_clear_constructed {s : State} (hb : s.busy = false) (hl : s.lstate ≠ .uninitialized) :
    exec .clear s = .next ((s.withFb []).respond .ok 0#32) := by
  change execClear s = _
  rw [execClear, whenIdle_idle hb, whenConstructed_pass ((State.constructed_iff s).2 hl)]
  rfl

/-- An empty framebuffer reads 0x00 at every offset (R26). -/
theorem State.fbRead_of_fb_nil {s : State} (h : s.fb = []) (i : Nat) : s.fbRead i = 0x00#8 := by
  simp [State.fbRead, h]

/-- Every pixel of an empty framebuffer is off (R54). -/
theorem State.pixel_of_fb_nil {s : State} (h : s.fb = []) (x y : Nat) : s.pixel x y = false := by
  simp [State.pixel, State.fbRead_of_fb_nil h]

/-- Settles O13: CLEAR leaves the empty framebuffer, in which every byte reads 0x00; a second CLEAR empties it again. -/
theorem clearZeroesTheFramebuffer : Obligations.ClearZeroesTheFramebuffer := by
  refine ⟨fun w hw => decode_clear hw, fun s hb => ⟨exec_clear_uninitialized hb, fun hl => ?_⟩⟩
  refine ⟨(s.withFb []).respond .ok 0#32, exec_clear_constructed hb hl, rfl, ?_, ?_, ?_⟩
  · exact fun i _ => State.fbRead_of_fb_nil rfl i
  · exact fun x y _ => State.pixel_of_fb_nil rfl x y
  · exact exec_clear_constructed (State.busy_respond _ _ _) hl

/-! ## DRAW_PIXEL -/

/-- A request with operation code 11 is DRAW_PIXEL of slots `A`, `B`, on exactly when slot `C` is not 0 (R82, R83). -/
theorem decode_drawPixel {w : ReqWord} (hw : w.op = 11#4) :
    decode (.request w) = .ok (.drawPixel (sint w.slotA) (sint w.slotB) (decide (w.slotC ≠ 0#32))) := by
  simp [decode, decodeRequest, hw]

/-- The byte DRAW_PIXEL writes: the old one with the bit of the row set or cleared (R122). -/
theorem setPixelBit_eq (old : Byte) (y : Nat) (on : Bool) :
    setPixelBit old y on = if on then old ||| 1#8 <<< (y % 8) else old &&& ~~~(1#8 <<< (y % 8)) := by
  have hall : ∀ b : Byte, b &&& 0xFF#8 = b := fun b => BitVec.and_allOnes
  rw [setPixelBit, hall]
  rfl

/-- A framebuffer write reads back at its offset and leaves every other byte alone (R13). -/
theorem State.fbRead_withFb_write {s : State} (hs : s.Inv) (o : Nat) (v : Byte) (a : Nat) :
    (s.withFb (Memory.write s.fb o v)).fbRead a = if o = a then v else s.fbRead a :=
  Memory.read_write hs.framebuffer.1 o v a

section
variable {s : State} {x y : Int}

/-- An in-bounds pixel's byte lies in the framebuffer (R52). -/
theorem State.pixelOffset_toNat_lt_size (hs : s.Inv) (hxy : s.inBounds x y = true) :
    s.pixelOffset x.toNat y.toNat < s.size := by
  obtain ⟨hx0, hx, hy0, hy⟩ := of_decide_eq_true hxy
  exact State.pixelOffset_lt_size (by omega) (State.page_lt hs (by omega))

/-- The pixel write out of bounds is no write at all (R122). -/
theorem State.drawPixel_outOfBounds (hxy : s.inBounds x y = false) (on : Bool) : s.drawPixel x y on = .ok s := by
  simp [State.drawPixel, hxy]

/-- The pixel write in bounds replaces the pixel's byte (R122). -/
theorem State.drawPixel_inBounds (hs : s.Inv) (hxy : s.inBounds x y = true) (on : Bool) :
    s.drawPixel x y on = .ok (s.withFb (Memory.write s.fb (s.pixelOffset x.toNat y.toNat)
      (setPixelBit (s.fbRead (s.pixelOffset x.toNat y.toNat)) y.toNat on))) := by
  simp [State.drawPixel, hxy, State.memWrite, State.pixelOffset_toNat_lt_size hs hxy]

theorem exec_drawPixel_uninitialized (hb : s.busy = false) (hl : s.lstate = .uninitialized) (on : Bool) :
    exec (.drawPixel x y on) s = .next (s.respond .errPrecond 0#32) := by
  change execDrawPixel x y on s = _
  rw [execDrawPixel, whenIdle_idle hb, whenConstructed_uninitialized hl]

/-- DRAW_PIXEL of an idle constructed block is its pixel write, answered `OK` (R122). -/
theorem exec_drawPixel_ok {t : State} {on : Bool} (hb : s.busy = false) (hl : s.lstate ≠ .uninitialized)
    (hd : s.drawPixel x y on = .ok t) : exec (.drawPixel x y on) s = .next (t.respond .ok 0#32) := by
  change execDrawPixel x y on s = _
  rw [execDrawPixel, whenIdle_idle hb, whenConstructed_pass ((State.constructed_iff s).2 hl)]
  simp [hd]

end

/-- Settles O14: out of bounds there is no write; in bounds the pixel's byte lies in the framebuffer, so the write reads
back there and leaves every other byte alone. -/
theorem drawPixelWritesOneBit : Obligations.DrawPixelWritesOneBit := by
  refine ⟨fun w hw => decode_drawPixel hw, fun s x y on hb => ⟨?_, ?_, ?_⟩⟩
  · exact fun hl => exec_drawPixel_uninitialized hb hl on
  · intro hl hout
    exact exec_drawPixel_ok hb hl (State.drawPixel_outOfBounds (decide_eq_false hout) on)
  · intro hs hl hin
    have hd := State.drawPixel_inBounds hs (decide_eq_true hin) on
    refine ⟨_, exec_drawPixel_ok hb hl hd, rfl, ?_, fun a ha => ?_⟩
    · rw [← setPixelBit_eq]
      exact (State.fbRead_withFb_write hs _ _ _).trans (if_pos rfl)
    · exact (State.fbRead_withFb_write hs _ _ a).trans (if_neg (Ne.symm ha))

end Sys2Proof.Machine

/-! # SendCommand and SendData (41_transfer_primitives.md R141 to R144) -/

namespace Sys2Proof.Machine

/-! ## The answer recorded beside a write (R33) -/

section
variable {a : Answer} (h : Handle) (addr : BitVec 7) (ctrl : Byte)

theorem Transaction.reply_writeByte_ok (he : a.error = false) (v : Byte) :
    (Transaction.writeByte h addr ctrl v).reply a = .ok := by simp [Transaction.reply, he]

theorem Transaction.reply_writeByte_error (he : a.error = true) (v : Byte) :
    (Transaction.writeByte h addr ctrl v).reply a = .error := by simp [Transaction.reply, he]

theorem Transaction.reply_writeBlock_ok (he : a.error = false) (bs : List Byte) :
    (Transaction.writeBlock h addr ctrl bs).reply a = .ok := by simp [Transaction.reply, he]

theorem Transaction.reply_writeBlock_error (he : a.error = true) (bs : List Byte) :
    (Transaction.writeBlock h addr ctrl bs).reply a = .error := by simp [Transaction.reply, he]

end

/-! ## The position after a write answered `Ok` (R31) -/

section
variable (s : State)

@[simp] theorem State.seqIdx_advanceIdx : s.advanceIdx.seqIdx = s.seqIdx.map (· + 1#5) := by
  cases hp : s.seq <;> simp [State.seqIdx, hp]

@[simp] theorem State.fbPtr_advanceIdx : s.advanceIdx.fbPtr = s.fbPtr := by
  cases hp : s.seq <;> simp [State.fbPtr, hp]

@[simp] theorem State.seqOp_advanceIdx : s.advanceIdx.seqOp = s.seqOp := by
  cases hp : s.seq <;> simp [State.seqOp, hp]

@[simp] theorem State.fbPtr_advancePtr (n : Nat) :
    (s.advancePtr n).fbPtr = s.fbPtr.map (· + BitVec.ofNat 17 n) := by
  cases hp : s.seq <;> simp [State.fbPtr, hp]

@[simp] theorem State.seqIdx_advancePtr (n : Nat) : (s.advancePtr n).seqIdx = s.seqIdx := by
  cases hp : s.seq <;> simp [State.seqIdx, hp]

@[simp] theorem State.seqOp_advancePtr (n : Nat) : (s.advancePtr n).seqOp = s.seqOp := by
  cases hp : s.seq <;> simp [State.seqOp, hp]

end

/-! ## A run whose first write is answered `Error` (R144) -/

section
variable {s : State} {h : Handle} {a : Answer} {rest : List Answer}

/-- The first command write is answered `Error`: the operation ends there. -/
theorem sendAll_command_error (hh : s.handle = some h) (ha : s.answers = a :: rest) (he : a.error = true) (b : Byte)
    (cmds : List Byte) (blocks : List (List Byte)) (onOk onError : State → State) :
    sendAll (b :: cmds) blocks onOk onError s =
      .next (onError (s.logged (.writeByte h s.devAddr 0x00#8 b) a rest)) := by
  simp [sendAll, hh, sendCommands, sendCommand_error ha he]

/-- No command write is left and the first data write is answered `Error`: the operation ends there. -/
theorem sendAll_block_error (hh : s.handle = some h) (ha : s.answers = a :: rest) (he : a.error = true)
    (bs : List Byte) (blocks : List (List Byte)) (onOk onError : State → State) :
    sendAll [] (bs :: blocks) onOk onError s =
      .next (onError (s.logged (.writeBlock h s.devAddr 0x40#8 bs) a rest)) := by
  simp [sendAll, hh, sendCommands, sendBlocks, sendData_error ha he]

end

/-- Both ends of an operation whose write failed respond `ERR_TRANSPORT`, leave the block idle and keep `TRACE` and the
answers (R144, R169). -/
theorem transportError_ends {onError : State → State} (hf : onError ∈ [State.transportFailed, State.initFailed])
    (u : State) : (onError u).status = .errTransport ∧ (onError u).rval = 0#32 ∧ (onError u).busy = false ∧
      (onError u).answers = u.answers ∧ (onError u).trace = u.trace := by
  simp only [List.mem_cons, List.not_mem_nil, or_false] at hf
  obtain rfl | rfl := hf
  · exact ⟨rfl, rfl, rfl, rfl, rfl⟩
  · exact ⟨rfl, rfl, rfl, rfl, rfl⟩

/-! ## SendCommand -/

/-- Settles O27: the first answer to come decides among the three outcomes of the command write. -/
theorem sendCommandIsOneWriteByte : Obligations.SendCommandIsOneWriteByte := by
  intro s h b
  refine ⟨sendCommand_waiting, fun a rest ha he => ?_, fun a rest ha he => ?_, ?_, rfl⟩
  · refine ⟨_, sendCommand_ok ha he, ?_, State.seqIdx_advanceIdx _, State.fbPtr_advanceIdx _, State.seqOp_advanceIdx _⟩
    rw [← Transaction.reply_writeByte_ok h s.devAddr 0x00#8 he b]
    rfl
  · rw [sendCommand_error ha he, ← Transaction.reply_writeByte_error h s.devAddr 0x00#8 he b]
    rfl
  · intro a rest cmds blocks onOk hh ha he onError hf
    rw [← Transaction.reply_writeByte_error h s.devAddr 0x00#8 he b]
    exact ⟨_, sendAll_command_error hh ha he b cmds blocks onOk onError, transportError_ends hf _⟩

/-! ## SendData -/

/-- A block that the sequencer forms carries 1 to 16 bytes (R182). -/
theorem State.length_of_mem_dataBlocks {s : State} {ptr : Nat} {bs : List Byte} (hbs : bs ∈ s.dataBlocks ptr) :
    1 ≤ bs.length ∧ bs.length ≤ 16 := by
  obtain ⟨k, hk⟩ := List.getElem?_of_mem hbs
  obtain ⟨hlt, -⟩ := List.getElem?_eq_some_iff.1 hk
  obtain rfl := Option.some.inj (hk.symm.trans (State.dataBlocks_getElem? s hlt))
  rw [State.dataBlocks_length] at hlt
  rw [State.memRead_length]
  omega

/-- Settles O28: the first answer to come decides among the three outcomes of the data write. -/
theorem sendDataIsOneWriteBlock : Obligations.SendDataIsOneWriteBlock := by
  refine ⟨fun s h bs => ⟨sendData_waiting, fun a rest ha he => ?_, fun a rest ha he => ?_, ?_, rfl⟩,
    fun _ _ _ => State.length_of_mem_dataBlocks⟩
  · refine ⟨_, sendData_ok ha he, ?_, State.fbPtr_advancePtr _ _, State.seqIdx_advancePtr _ _,
      State.seqOp_advancePtr _ _⟩
    rw [← Transaction.reply_writeBlock_ok h s.devAddr 0x40#8 he bs]
    rfl
  · rw [sendData_error ha he, ← Transaction.reply_writeBlock_error h s.devAddr 0x40#8 he bs]
    rfl
  · intro a rest blocks onOk hh ha he onError hf
    rw [← Transaction.reply_writeBlock_error h s.devAddr 0x40#8 he bs]
    exact ⟨_, sendAll_block_error hh ha he bs blocks onOk onError, transportError_ends hf _⟩

end Sys2Proof.Machine

/-! # INIT (43_init_sequence.md R165, R168) -/

namespace Sys2Proof.Machine

/-- An operation of command writes only, every one answered `Ok`. -/
theorem sendAll_commands_ok {cmds : List Byte} {onOk onError : State → State} {s : State} {h : Handle}
    {as rest : List Answer} (hh : s.handle = some h) (ha : s.answers = as ++ rest) (hok : allOk as)
    (hl : as.length = cmds.length) :
    sendAll cmds [] onOk onError s = .next (onOk (s.ranCommands h cmds rest)) := by
  have hnone : (s.ranCommands h cmds rest).ranBlocks h [] rest = s.ranCommands h cmds rest :=
    State.ranBlocks_nil (s.ranCommands h cmds rest) h
  have hrun := sendAll_ok (bs := []) (blocks := []) (onOk := onOk) (onError := onError) hh ha hok allOk_nil hl rfl
  rwa [List.nil_append, hnone] at hrun

/-- `INIT_ROM` holds 24 command bytes (R166). -/
theorem initRom_length : initRom.length = 24 := rfl

/-- INIT on a constructed block runs the whole of `INIT_ROM` (R165). -/
theorem exec_init_constructed {s : State} (hb : s.busy = false) (hl : s.lstate ≠ .uninitialized) :
    exec .init s = sendAll initRom [] State.initDone State.initFailed (s.accepted .init) := by
  change execInit s = _
  rw [execInit, whenIdle_idle hb, whenConstructed_pass ((State.constructed_iff s).2 hl)]
  rfl

/-- The end of an INIT answered `Ok` throughout: `INIT_ROM` logged in order, `DeviceInitialized`, response `OK` (R165). -/
theorem State.initDone_ranCommands (s : State) (h : Handle) (rest : List Answer) :
    ((s.accepted .init).ranCommands h initRom rest).initDone =
      (s.setLState .deviceInitialized).completed .ok 0#32 (okCommands h s.devAddr initRom) rest := rfl

/-- Settles O31: INIT runs `INIT_ROM` through the sequencer, which logs its 24 bytes in order. -/
theorem initSendsExactlyTheFixedSequence : Obligations.InitSendsExactlyTheFixedSequence := by
  intro s h as rest hb hl hh ha hok hlen
  rw [exec_init_constructed hb hl,
    sendAll_commands_ok (s := s.accepted .init) hh ha hok (hlen.trans initRom_length.symm), State.initDone_ranCommands]
  rfl

end Sys2Proof.Machine

/-! # ACT_SCROLL and DEACT_SCROLL (44_flush_and_commands.md R186 to R188) -/

namespace Sys2Proof.Machine

/-- A request with operation code 7 is ACT_SCROLL (R82). -/
theorem decode_actScroll {w : ReqWord} (hw : w.op = 7#4) : decode (.request w) = .ok .actScroll := by
  simp [decode, decodeRequest, hw]

/-- A request with operation code 8 is DEACT_SCROLL (R82). -/
theorem decode_deactScroll {w : ReqWord} (hw : w.op = 8#4) : decode (.request w) = .ok .deactScroll := by
  simp [decode, decodeRequest, hw]

/-! ## A single-command operation -/

section
variable {s : State}

/-- A single-command operation in `Uninitialized` is refused with `ERR_PRECOND` (R29). -/
theorem singleCommand_uninitialized (hb : s.busy = false) (hl : s.lstate = .uninitialized) (op : BitVec 4) (b : Byte) :
    whenIdle s (fun s => whenConstructed s (start (.command op b))) = .next (s.respond .errPrecond 0#32) := by
  rw [whenIdle_idle hb, whenConstructed_uninitialized hl]

/-- A single-command operation is one command write, and the answer to it decides the response (R141, R144, R188). -/
theorem singleCommand_answered {h : Handle} {a : Answer} {rest : List Answer} (hb : s.busy = false)
    (hl : s.lstate ≠ .uninitialized) (hh : s.handle = some h) (ha : s.answers = a :: rest) (op : BitVec 4) (b : Byte) :
    whenIdle s (fun s => whenConstructed s (start (.command op b))) =
      .next (s.completed (if a.error then .errTransport else .ok) 0#32
        [⟨.writeByte h s.devAddr 0x00#8 b, if a.error then .error else .ok⟩] rest) := by
  rw [whenIdle_idle hb, whenConstructed_pass ((State.constructed_iff s).2 hl)]
  change sendAll [b] [] State.commandDone State.transportFailed (s.accepted (.command op b)) = _
  cases he : a.error with
  | false =>
    have hok : allOk [a] := allOk_cons.2 ⟨he, allOk_nil⟩
    rw [sendAll_commands_ok (s := s.accepted (.command op b)) (as := [a]) hh ha hok rfl]
    rfl
  | true =>
    rw [sendAll_command_error (s := s.accepted (.command op b)) hh ha he, State.transportFailed, State.raiseError,
      State.logged, Transaction.reply_writeByte_error _ _ _ he]
    rfl

end

/-! ## The scroll switches -/

/-- The two scroll switches are single-command operations of their fixed byte (R186, R187). -/
theorem exec_scrollSwitch {ib : Instr × Byte} (hib : ib ∈ [(Instr.actScroll, 0x2F#8), (Instr.deactScroll, 0x2E#8)])
    (s : State) : ∃ op, exec ib.1 s = whenIdle s fun s => whenConstructed s (start (.command op ib.2)) := by
  simp only [List.mem_cons, List.not_mem_nil, or_false] at hib
  obtain rfl | rfl := hib
  · exact ⟨7#4, rfl⟩
  · exact ⟨8#4, rfl⟩

/-- Settles O38: each scroll switch is a single-command operation. -/
theorem scrollSwitchesSendTheirCommand : Obligations.ScrollSwitchesSendTheirCommand := by
  refine ⟨fun w hw => decode_actScroll hw, fun w hw => decode_deactScroll hw, fun s hb ib hib => ?_⟩
  obtain ⟨op, hexec⟩ := exec_scrollSwitch hib s
  rw [hexec]
  exact ⟨fun hl => singleCommand_uninitialized hb hl op ib.2,
    fun _ _ _ hl hh ha => singleCommand_answered hb hl hh ha op ib.2⟩

end Sys2Proof.Machine

/-! # What is not an error (60_exceptions.md R202) -/

namespace Sys2Proof.Machine

/-! ## The empty rectangle (R125) -/

/-- An empty row range keeps every bit of every page (R125). -/
theorem keepRows_of_le {ya yb : Int} (hy : yb ≤ ya) (page : Nat) : keepRows ya yb page = 0xFF#8 := by
  have hout : ∀ r : Int, ¬ (ya ≤ r ∧ r < yb) := fun r => by omega
  simp only [keepRows, if_neg (hout _)]
  rfl

/-- An empty rectangle keeps every bit of every byte: it holds no column, or no row of the columns it holds (R125). -/
theorem State.keepMask_of_empty (s : State) {dx dy : Int} (hd : dx ≤ 0 ∨ dy ≤ 0) (x y : Int) (i : Nat) :
    s.keepMask x y dx dy i = 0xFF#8 := by
  unfold State.keepMask
  split
  next hcol => exact keepRows_of_le (by omega) _
  next => rfl

/-- A mask that keeps every bit leaves a framebuffer in canonical form as it is. -/
theorem Memory.andMask_eq_self {keep : Nat → Byte} {m : Memory} (hw : Memory.wf m = true)
    (hk : ∀ i, keep i = 0xFF#8) : Memory.andMask keep m = m := by
  refine Memory.ext (Memory.wf_andMask keep hw) hw fun i => ?_
  rw [Memory.read_andMask keep hw, hk]
  exact BitVec.and_allOnes

/-! ## Each operation answers `OK` -/

section
variable {s : State}

/-- Both common checks pass on an idle constructed block, and the operation runs (R30, R120). -/
theorem whenIdle_whenConstructed_pass (hb : s.busy = false) (hl : s.lstate ≠ .uninitialized) (op : State → Result) :
    whenIdle s (fun s => whenConstructed s op) = op s := by
  rw [whenIdle_idle hb, whenConstructed_pass ((State.constructed_iff s).2 hl)]

/-- RELEASE of an idle block answers `OK` in every lifecycle state (R154). -/
theorem exec_release_ok (hb : s.busy = false) : exec .release s = .next (s.released.respond .ok 0#32) := by
  change execRelease s = _
  exact whenIdle_idle hb

/-- CLEAR_BLOCK of an idle constructed block masks the framebuffer and answers `OK`, whatever the rectangle (R124, R125). -/
theorem exec_clearBlock_constructed (hb : s.busy = false) (hl : s.lstate ≠ .uninitialized) (x y dx dy : Int) :
    exec (.clearBlock x y dx dy) s =
      .next ((s.withFb (Memory.andMask (s.keepMask x y dx dy) s.fb)).respond .ok 0#32) :=
  whenIdle_whenConstructed_pass hb hl _

/-- SCROLL_CFG of an idle constructed block answers `OK` and does nothing else (R156). -/
theorem exec_scrollCfg_constructed (hb : s.busy = false) (hl : s.lstate ≠ .uninitialized) (d v : Slot) :
    exec (.scrollCfg d v) s = .next (s.respond .ok 0#32) :=
  whenIdle_whenConstructed_pass hb hl _

/-- DRAW_PIXEL of a block under the invariant answers `OK`, and out of bounds it leaves the framebuffer as it is (R122). -/
theorem exec_drawPixel_answersOk (hs : s.Inv) (hb : s.busy = false) (hl : s.lstate ≠ .uninitialized) (x y : Int)
    (on : Bool) : ∃ t, exec (.drawPixel x y on) s = .next t ∧ t.status = .ok ∧
      (s.inBounds x y = false → t.fb = s.fb) := by
  cases hxy : s.inBounds x y with
  | false => exact ⟨_, exec_drawPixel_ok hb hl (State.drawPixel_outOfBounds hxy on), rfl, fun _ => rfl⟩
  | true => exact ⟨_, exec_drawPixel_ok hb hl (State.drawPixel_inBounds hs hxy on), rfl, nofun⟩

/-- SET_START_LINE answered `Ok` completes with `OK`, whatever the offset byte (R185). -/
theorem exec_setStartLine_ok {h : Handle} {a : Answer} {rest : List Answer} (hb : s.busy = false)
    (hl : s.lstate ≠ .uninitialized) (hh : s.handle = some h) (ha : s.answers = a :: rest) (he : a.error = false)
    (offset : Byte) : ∃ t, exec (.setStartLine offset) s = .next t ∧ t.status = .ok := by
  refine ⟨_, singleCommand_answered hb hl hh ha 5#4 (startLineByte offset), ?_⟩
  simp [he]

end

/-- Settles O19: RELEASE asks for nothing, and a constructed block has the handle that the sending operations need and the
canonical framebuffer that an empty rectangle leaves as it is. -/
theorem whatIsNotAnError : Obligations.WhatIsNotAnError := by
  refine fun s hs hb => ⟨fun _ => ⟨_, exec_release_ok hb, rfl⟩, fun hl => ?_⟩
  obtain ⟨h, hh⟩ := Option.isSome_iff_exists.1 (hs.handle.2 hl)
  refine ⟨exec_drawPixel_answersOk hs hb hl, fun x y dx dy => ?_, fun d v => ?_, ?_, ?_⟩
  · refine ⟨_, exec_clearBlock_constructed hb hl x y dx dy, rfl, fun hd => ?_⟩
    exact Memory.andMask_eq_self hs.framebuffer.1 (s.keepMask_of_empty hd x y)
  · exact ⟨_, exec_scrollCfg_constructed hb hl d v, rfl⟩
  · exact fun offset a rest ha he => exec_setStartLine_ok hb hl hh ha he offset
  · exact fun as rest ha hok hlen => ⟨_, initSendsExactlyTheFixedSequence s h as rest hb hl hh ha hok hlen, rfl⟩

end Sys2Proof.Machine

/-! # Encoding and decoding (30_encoding.md R80 to R99) -/

namespace Sys2Proof

/-! ## Requests -/

section
variable (op : BitVec 4) (a b c d : Slot)

/-- Reading a packed request word: the row of its operation code with the operands of its slots (R82, R83). -/
theorem decode_encodeRequest :
    decode (encodeRequest op a b c d) = .ok (decodeRequest (ReqWord.pack op a b c d)) := rfl

end

/-- An encoded request reads back: each field of the packed word gives its operand again (R80 to R83). -/
theorem decode_encode_request {i : Instr} (hw : i.wf = true) (hr : Machine.isRequest i = true) :
    decode (encode i) = .ok i := by
  cases i with
  | construct | writeRaw | clearBlock =>
    simp only [Instr.wf, Bool.and_eq_true] at hw
    simp [encode, decode_encodeRequest, decodeRequest, sint_slotOfInt, hw]
  | drawPixel x y on =>
    simp only [Instr.wf, Bool.and_eq_true] at hw
    cases on <;> simp [encode, decode_encodeRequest, decodeRequest, sint_slotOfInt, hw]
  | setStartLine | scrollCfg => simp [encode, decode_encodeRequest, decodeRequest]
  | init | flush | clear | clearFlush | actScroll | deactScroll | getPages | release | reserved14 | reserved15 =>
    simp [encode, decode_encodeRequest, decodeRequest]
  | _ => cases hr

/-- The start-line command byte: the two bits of its row above the offset (R93). -/
theorem startLineBase_eq_append (offset : BitVec 6) : 0x40#8 ||| offset.setWidth 8 = 0b01#2 ++ offset := by
  revert offset
  decide

/-- The two rows of R104 that leave low bits free read their field back from the command byte. -/
theorem decodeWire_startLineBase (offset : BitVec 6) (rest : List Byte) :
    decodeWire ((0x40#8 ||| offset.setWidth 8) :: rest) = .ok (.setStartLineBase offset, rest) := by
  have hrow : (0b01#2 ++ offset).extractLsb' 6 2 = 0b01#2 := by revert offset; decide
  have hfield : (0b01#2 ++ offset).extractLsb' 0 6 = offset := by revert offset; decide
  rw [startLineBase_eq_append, decodeWire, if_pos hrow, hfield]
  rfl

/-- An encoded wire command or argument constant reads back: the command byte selects its row, the bytes after it are the
arguments (R92, R95, R97, R98). -/
theorem decode_encode_other {i : Instr} (hr : Machine.isRequest i = false) : decode (encode i) = .ok i := by
  cases i with
  | setStartLineBase offset => simp only [encode, decode, decodeWire_startLineBase]
  | segRemapBase remap => cases remap <;> rfl
  | construct | init | flush | clear | clearFlush | setStartLine | writeRaw | actScroll | deactScroll | scrollCfg | getPages
  | drawPixel | clearBlock | release | reserved14 | reserved15 => cases hr
  | _ => rfl

/-- Settles O6: a request reads back through the fields of its word, every other row through its bytes. -/
theorem decodeOfEncodeIsTheInstruction : Obligations.DecodeOfEncodeIsTheInstruction := by
  intro i hw
  cases hr : Machine.isRequest i with
  | true => exact decode_encode_request hw hr
  | false => exact decode_encode_other hr

/-! ## Every request word is read (R82, R85) -/

theorem isRequest_decodeRequest (w : ReqWord) : Machine.isRequest (decodeRequest w) = true := by
  unfold decodeRequest
  split <;> rfl

theorem wf_decodeRequest (w : ReqWord) : (decodeRequest w).wf = true := by
  unfold decodeRequest
  split <;> simp [Instr.wf, fitsSlot_sint]

/-- The operation code that the encoder writes for a request is the one the request was read from (R82, R85). -/
theorem encode_decodeRequest (w : ReqWord) :
    ∃ a b c d, encode (decodeRequest w) = .request (ReqWord.pack w.op a b c d) := by
  have hop : w.op = BitVec.ofNat 4 w.op.toNat := BitVec.eq_of_toNat_eq (by simp)
  have hlt := w.op.isLt
  unfold decodeRequest
  split
  case h_16 =>
    have h15 : w.op.toNat = 15 := by grind
    rw [h15] at hop
    exact hop ▸ ⟨_, _, _, _, rfl⟩
  all_goals
    rename_i hcode
    rw [hcode] at hop
    exact hop ▸ ⟨_, _, _, _, rfl⟩

/-- Settles O7: the encoder writes the operation code the word was read from, and the written word reads back by `O6`. -/
theorem everyRequestWordIsRead : Obligations.EveryRequestWordIsRead := by
  intro w
  have hwf := wf_decodeRequest w
  obtain ⟨a, b, c, d, hw⟩ := encode_decodeRequest w
  refine ⟨hwf, isRequest_decodeRequest w, _, hw, ReqWord.op_pack _ _ _ _ _, ?_⟩
  have hback := decodeOfEncodeIsTheInstruction _ hwf
  rw [hw] at hback
  exact Except.ok.inj hback

/-! ## Ignored operand bits (R83) -/

/-- Settles O8: each row reads the slots its operands stand in, a narrow operand the low bits of its slot only. -/
theorem ignoredOperandBitsDoNotMatter : Obligations.IgnoredOperandBitsDoNotMatter := by
  refine ⟨fun w w' hop => ⟨fun hnone => ?_, ?_, ?_, ?_, ?_, ?_, ?_⟩, fun _ _ _ _ _ => rfl⟩
  · have hrow : w'.op = w.op := hop.symm
    simp only [List.mem_cons, List.not_mem_nil, or_false] at hnone
    rcases hnone with h | h | h | h | h | h | h | h | h | h <;> rw [h] at hrow <;> simp [decodeRequest, h, hrow]
  · intro h hA hB hC hD
    simp [decodeRequest, ← hop, h, hA, hB, hC, hD]
  · intro h hA
    simp [decodeRequest, ← hop, h, hA]
  · intro h hA hB
    simp [decodeRequest, ← hop, h, hA, hB]
  · intro h hA hB
    simp [decodeRequest, ← hop, h, hA, hB]
  · intro h hA hB hC
    simp [decodeRequest, ← hop, h, hA, hB, hC]
  · intro h hA hB hC hD
    simp [decodeRequest, ← hop, h, hA, hB, hC, hD]

/-! ## Fixed words and bytes -/

/-- Settles O5: the decoder reads each word as written out. -/
theorem handWrittenWordsDecode : Obligations.HandWrittenWordsDecode := by
  exact ⟨rfl, rfl, rfl, rfl, rfl, rfl, rfl, rfl, rfl, rfl, rfl, rfl⟩

/-- Settles O9: the decoder reads the 24 bytes by position. -/
theorem initRomReadsAsTheFifteenSteps : Obligations.InitRomReadsAsTheFifteenSteps := ⟨rfl, rfl⟩

/-- Settles O10: the encoder writes each row's bytes; the start-line offset stands below the two bits of its row. -/
theorem wireCommandBytes : Obligations.WireCommandBytes := by
  intro a b f r
  have hline : (encode (.setStartLineBase f)).wireBytes = [0b01#2 ++ f] := by
    rw [← startLineBase_eq_append]
    rfl
  have hremap : (encode (.segRemapBase r)).wireBytes = [if r then 0xA1#8 else 0xA0#8] := by cases r <;> rfl
  exact ⟨rfl, rfl, rfl, rfl, rfl, rfl, hline, hremap, rfl, rfl, rfl, rfl, rfl, rfl, rfl, rfl, rfl, rfl, rfl⟩

end Sys2Proof

/-! # An operation in progress: what it still has to send, and where it stands (10_state.md R31, R143) -/

namespace Sys2Proof.Machine

/-! ## Runs of writes, commands then blocks -/

/-- The state after the command writes `cmds` and the data writes `blocks`, all answered `Ok`, with the answers `rest` still
to come. -/
def State.sent (s : State) (h : Handle) (cmds : List Byte) (blocks : List (List Byte)) (rest : List Answer) : State :=
  (s.ranCommands h cmds rest).ranBlocks h blocks rest

section
variable (s : State) (h : Handle) (cmds : List Byte) (blocks : List (List Byte)) (rest : List Answer)

@[simp] theorem State.sent_lstate : (s.sent h cmds blocks rest).lstate = s.lstate := rfl
@[simp] theorem State.sent_handle : (s.sent h cmds blocks rest).handle = s.handle := rfl
@[simp] theorem State.sent_devAddr : (s.sent h cmds blocks rest).devAddr = s.devAddr := rfl
@[simp] theorem State.sent_width : (s.sent h cmds blocks rest).width = s.width := rfl
@[simp] theorem State.sent_height : (s.sent h cmds blocks rest).height = s.height := rfl
@[simp] theorem State.sent_pages : (s.sent h cmds blocks rest).pages = s.pages := rfl
@[simp] theorem State.sent_fb : (s.sent h cmds blocks rest).fb = s.fb := rfl
@[simp] theorem State.sent_status : (s.sent h cmds blocks rest).status = s.status := rfl
@[simp] theorem State.sent_rval : (s.sent h cmds blocks rest).rval = s.rval := rfl
@[simp] theorem State.sent_cfg : (s.sent h cmds blocks rest).cfg = s.cfg := rfl
@[simp] theorem State.sent_inbox : (s.sent h cmds blocks rest).inbox = s.inbox := rfl
@[simp] theorem State.sent_answers : (s.sent h cmds blocks rest).answers = rest := rfl
@[simp] theorem State.sent_resetLine : (s.sent h cmds blocks rest).resetLine = s.resetLine := rfl
@[simp] theorem State.sent_preload : (s.sent h cmds blocks rest).preload = s.preload := rfl
@[simp] theorem State.sent_trace : (s.sent h cmds blocks rest).trace =
    s.trace ++ (okCommands h s.devAddr cmds ++ okBlocks h s.devAddr blocks) := by simp [State.sent]
@[simp] theorem State.sent_seq : (s.sent h cmds blocks rest).seq = s.seq.map fun p =>
    { p with idx := p.idx + BitVec.ofNat 5 cmds.length, ptr := p.ptr + BitVec.ofNat 17 blocks.flatten.length } := by
  simp [State.sent, Function.comp_def]
@[simp] theorem State.size_sent : (s.sent h cmds blocks rest).size = s.size := rfl
@[simp] theorem State.busy_sent : (s.sent h cmds blocks rest).busy = s.busy := by simp [State.busy]

/-- A run of command writes only. -/
theorem State.sent_commands : s.sent h cmds [] rest = s.ranCommands h cmds rest :=
  State.ranBlocks_nil (s.ranCommands h cmds rest) h

/-- Nothing sent. -/
theorem State.sent_nothing : s.sent h [] [] s.answers = s := by
  rw [State.sent_commands, State.ranCommands_nil]

end

/-- `Due s h cmds blocks sentCmds sentBlocks t`: of the command writes `cmds` and the data writes `blocks` to the handle `h`,
those sent so far are the first ones, and `t` is the next (R61, R143). -/
inductive Due (s : State) (h : Handle) (cmds : List Byte) (blocks : List (List Byte)) :
    List Byte → List (List Byte) → Transaction → Prop
  | command {cs after : List Byte} {b : Byte} (split : cmds = cs ++ b :: after) :
      Due s h cmds blocks cs [] (s.commandTx h b)
  | block {bs after : List (List Byte)} {b : List Byte} (split : blocks = bs ++ b :: after) :
      Due s h cmds blocks cmds bs (s.dataTx h b)

/-- Fewer writes than all are sent while one is due. -/
theorem Due.length_lt {s : State} {h : Handle} {cmds cs : List Byte} {blocks bs : List (List Byte)} {t : Transaction}
    (hd : Due s h cmds blocks cs bs t) : cs.length + bs.length < cmds.length + blocks.length := by
  cases hd with
  | command split | block split =>
    simp only [split, List.length_append, List.length_cons, List.length_nil]
    omega

/-- The three outcomes of the sequencer where `HANDLE` holds a value: every write answered `Ok`; the write due answered
`Error`; or no answer for the write due (R61, R143, R144). -/
theorem sendAll_outcomes {s : State} {h : Handle} (hh : s.handle = some h) (cmds : List Byte)
    (blocks : List (List Byte)) (onOk onError : State → State) :
    (∃ as rest, s.answers = as ++ rest ∧ allOk as ∧ as.length = cmds.length + blocks.length ∧
      sendAll cmds blocks onOk onError s = .next (onOk (s.sent h cmds blocks rest))) ∨
    (∃ cs bs t as e rest, Due s h cmds blocks cs bs t ∧ s.answers = as ++ e :: rest ∧ allOk as ∧
      as.length = cs.length + bs.length ∧ e.error = true ∧
      sendAll cmds blocks onOk onError s = .next (onError ((s.sent h cs bs (e :: rest)).logged t e rest))) ∨
    (∃ cs bs t, Due s h cmds blocks cs bs t ∧ allOk s.answers ∧ s.answers.length = cs.length + bs.length ∧
      sendAll cmds blocks onOk onError s = .next (s.sent h cs bs [])) := by
  have hall : ∀ {as bs : List Answer}, allOk as → allOk bs → allOk (as ++ bs) := fun h1 h2 a ha =>
    (List.mem_append.1 ha).elim (h1 a) (h2 a)
  rcases sendAll_cases hh cmds blocks onOk onError with
    ⟨as, bs, rest, ha, h1, h2, hl, hm, hr⟩ | ⟨cs, b, after, as, e, rest, split, ha, h1, hl, he, hr⟩ |
    ⟨bs, b, after, as, as', e, rest, split, ha, h1, h2, hl, hm, he, hr⟩ | ⟨cs, b, after, split, h1, hl, hr⟩ |
    ⟨bs, b, after, as, as', split, ha, h1, h2, hl, hm, hr⟩
  · exact .inl ⟨as ++ bs, rest, by simp [ha], hall h1 h2, by simp [hl, hm], hr⟩
  · refine .inr (.inl ⟨cs, [], _, as, e, rest, .command split, ha, h1, hl, he, ?_⟩)
    rw [hr, State.sent_commands]
    rfl
  · exact .inr (.inl ⟨cmds, bs, _, as ++ as', e, rest, .block split, by simp [ha], hall h1 h2, by simp [hl, hm], he, hr⟩)
  · refine .inr (.inr ⟨cs, [], _, .command split, h1, hl, ?_⟩)
    rw [hr, State.sent_commands]
  · exact .inr (.inr ⟨cmds, bs, _, .block split, by rw [ha]; exact hall h1 h2, by simp [ha, hl, hm], hr⟩)

/-! ## Running the first writes of an operation -/

section
variable {s : State} {h : Handle} {as rest : List Answer}

/-- Command writes whose first ones are answered `Ok` go on with the others. -/
theorem sendCommands_append (cs cmds : List Byte) : ∀ {s : State} {as : List Answer}, s.answers = as ++ rest → allOk as →
    as.length = cs.length → sendCommands h (cs ++ cmds) s = sendCommands h cmds (s.ranCommands h cs rest) := by
  induction cs with
  | nil =>
    intro s as ha _ hl
    obtain rfl := List.eq_nil_of_length_eq_zero hl
    rw [← show s.answers = rest from ha, State.ranCommands_nil, List.nil_append]
  | cons b cs ih =>
    intro s as ha hok hl
    cases as with
    | nil => simp at hl
    | cons a as =>
      obtain ⟨he, hok⟩ := allOk_cons.1 hok
      rw [← State.ranCommands_cons s h b cs a (as ++ rest) rest he, ← ih rfl hok (Nat.succ.inj hl)]
      simp only [List.cons_append, sendCommands, sendCommand_ok (h := h) (b := b) (rest := as ++ rest) ha he]

/-- Data writes whose first ones are answered `Ok` go on with the others. -/
theorem sendBlocks_append (bs blocks : List (List Byte)) : ∀ {s : State} {as : List Answer}, s.answers = as ++ rest →
    allOk as → as.length = bs.length → sendBlocks h (bs ++ blocks) s = sendBlocks h blocks (s.ranBlocks h bs rest) := by
  induction bs with
  | nil =>
    intro s as ha _ hl
    obtain rfl := List.eq_nil_of_length_eq_zero hl
    rw [← show s.answers = rest from ha, State.ranBlocks_nil, List.nil_append]
  | cons b bs ih =>
    intro s as ha hok hl
    cases as with
    | nil => simp at hl
    | cons a as =>
      obtain ⟨he, hok⟩ := allOk_cons.1 hok
      rw [← State.ranBlocks_cons s h b bs a (as ++ rest) rest he, ← ih rfl hok (Nat.succ.inj hl)]
      simp only [List.cons_append, sendBlocks, sendData_ok (h := h) (bs := b) (rest := as ++ rest) ha he]

variable {onOk onError : State → State}

/-- An operation whose first command writes are answered `Ok` goes on with the others (R61). -/
theorem sendAll_sent_commands (hh : s.handle = some h) (ha : s.answers = as ++ rest) (hok : allOk as)
    {cs : List Byte} (hl : as.length = cs.length) (cmds : List Byte) (blocks : List (List Byte)) :
    sendAll (cs ++ cmds) blocks onOk onError s = sendAll cmds blocks onOk onError (s.sent h cs [] rest) := by
  rw [State.sent_commands]
  simp only [sendAll, State.ranCommands_handle, hh, sendCommands_append cs cmds ha hok hl]

/-- An operation whose command writes and first data writes are answered `Ok` goes on with the other data writes (R61). -/
theorem sendAll_sent_blocks (hh : s.handle = some h) (ha : s.answers = as ++ rest) (hok : allOk as)
    {cmds : List Byte} {bs : List (List Byte)} (hl : as.length = cmds.length + bs.length) (blocks : List (List Byte)) :
    sendAll cmds (bs ++ blocks) onOk onError s = sendAll [] blocks onOk onError (s.sent h cmds bs rest) := by
  have ha' : s.answers = as.take cmds.length ++ (as.drop cmds.length ++ rest) := by
    rw [ha, ← List.append_assoc, List.take_append_drop]
  rw [← List.append_nil cmds, sendAll_sent_commands hh ha' (fun a ha => hok a (List.mem_of_mem_take ha)) (by simp [hl]),
    State.sent_commands, List.append_nil]
  simp only [sendAll, State.ranCommands_handle, hh, sendCommands, State.sent, State.ranBlocks_handle]
  rw [sendBlocks_append (s := s.ranCommands h cmds (as.drop cmds.length ++ rest)) bs blocks rfl
    (fun a ha => hok a (List.mem_of_mem_drop ha)) (by simp [hl])]
  rfl

/-- Every write before the one due is answered `Ok`, that one `Error`: the operation ends there (R144). -/
theorem sendAll_failed {cmds cs : List Byte} {blocks bs : List (List Byte)} {t : Transaction} {e : Answer}
    (hd : Due s h cmds blocks cs bs t) (hh : s.handle = some h) (ha : s.answers = as ++ e :: rest) (hok : allOk as)
    (hl : as.length = cs.length + bs.length) (he : e.error = true) :
    sendAll cmds blocks onOk onError s = .next (onError ((s.sent h cs bs (e :: rest)).logged t e rest)) := by
  cases hd with
  | command split =>
    rw [split, sendAll_sent_commands hh ha hok hl, sendAll_command_error (s := s.sent h cs [] (e :: rest)) hh rfl he]
    rfl
  | block split =>
    rw [split, sendAll_sent_blocks hh ha hok hl, sendAll_block_error (s := s.sent h cmds bs (e :: rest)) hh rfl he]
    rfl

/-- Every write is answered `Ok`: the operation completes. -/
theorem sendAll_done (hh : s.handle = some h) (ha : s.answers = as ++ rest) (hok : allOk as) {cmds : List Byte}
    {blocks : List (List Byte)} (hl : as.length = cmds.length + blocks.length) :
    sendAll cmds blocks onOk onError s = .next (onOk (s.sent h cmds blocks rest)) := by
  have hrun := sendAll_sent_blocks (onOk := onOk) (onError := onError) hh ha hok hl []
  rw [List.append_nil] at hrun
  rw [hrun]
  simp [sendAll, hh, sendCommands, sendBlocks]

end

end Sys2Proof.Machine

/-! # The operation at the sequencer (10_state.md R31) -/

namespace Sys2Proof.Machine

/-! ## What an operation sends, and how it ends -/

/-- The command bytes of an operation, from its beginning. -/
def State.jobCommands (s : State) : Job → List Byte
  | .construct _ _ _ _ => []
  | .init => initRom
  | .flush | .clearFlush => s.windowCmds
  | .command _ b => [b]
  | .wire bytes => bytes

/-- The data blocks of an operation from framebuffer offset `ptr` on. -/
def State.jobBlocks (s : State) (ptr : Nat) : Job → List (List Byte)
  | .flush | .clearFlush => s.dataBlocks ptr
  | .construct _ _ _ _ | .init | .command _ _ | .wire _ => []

/-- `LSTATE` after an operation completed from `l` (R165, R180, R184, R188). -/
def Job.lstateDone (l : LState) : Job → LState
  | .init => .deviceInitialized
  | .flush | .clearFlush => .displaying
  | .construct _ _ _ _ | .command _ _ | .wire _ => l

/-- `LSTATE` after a write of the operation failed (R144, R169). -/
def Job.lstateFailed (l : LState) : Job → LState
  | .init => .busAcquired
  | .construct _ _ _ _ | .flush | .clearFlush | .command _ _ | .wire _ => l

/-- `LSTATE` after a failure: as before, but for an INIT (R169, R183, R188). -/
theorem Job.lstateFailed_cases (job : Job) (l : LState) :
    job.lstateFailed l = l ∨ job = .init ∧ job.lstateFailed l = .busAcquired := by
  cases job <;> simp [Job.lstateFailed]

/-- The end of an operation whose every write was answered `Ok`. -/
def State.jobDone (job : Job) (s : State) : State := (s.setLState (job.lstateDone s.lstate)).respond .ok 0#32

/-- The end of an operation one of whose writes was answered `Error`. -/
def State.jobFailed (job : Job) (s : State) : State :=
  (s.setLState (job.lstateFailed s.lstate)).respond .errTransport 0#32

/-- CONSTRUCT is the operation that opens the bus; every other one writes. -/
def Job.writes : Job → Bool
  | .construct _ _ _ _ => false
  | .init | .flush | .clearFlush | .command _ _ | .wire _ => true

theorem Job.writes_iff {job : Job} : job.writes = true ↔ ∀ b a h w, job ≠ .construct b a h w := by
  cases job <;> simp [Job.writes]

section
variable {s : State} {p : Position}

/-- An idle block does not go on with anything. -/
theorem resume_idle (hs : s.seq = none) : resume s = .next s := by simp [resume, hs]

/-- CONSTRUCT goes on from its OPEN (R150). -/
theorem resume_construct {b : Int} {a : BitVec 7} {h w : Int} {idx : BitVec 5} {ptr : BitVec 17}
    (hp : s.seq = some ⟨.construct b a h w, idx, ptr⟩) : resume s = openBus b a h w s := by simp [resume, hp]

/-- Any other operation sends what is left of its command bytes and of its blocks (R31). -/
theorem resume_writes (hp : s.seq = some p) (hj : p.job.writes = true) :
    resume s = sendAll ((s.jobCommands p.job).drop p.idx.toNat) (s.jobBlocks p.ptr.toNat p.job)
      (State.jobDone p.job) (State.jobFailed p.job) s := by
  obtain ⟨job, idx, ptr⟩ := p
  cases job with
  | construct => cases hj
  | init | flush | clearFlush | command | wire =>
    simp only [resume, hp]
    rfl

/-- The transaction that an operation with writes to do presents (R143). -/
theorem pendingTx_writes (hp : s.seq = some p) (hj : p.job.writes = true) :
    s.pendingTx = s.nextTx ((s.jobCommands p.job).drop p.idx.toNat) (s.jobBlocks p.ptr.toNat p.job) := by
  obtain ⟨job, idx, ptr⟩ := p
  cases job with
  | construct => cases hj
  | init | flush | clearFlush | command | wire =>
    simp only [State.pendingTx, hp]
    rfl

end

/-- `Sending s h p cs bs t`: the operation at position `p` has a write due: after the command bytes `cs` and the blocks `bs`
from `p` on, it is the transaction `t`. -/
abbrev Sending (s : State) (h : Handle) (p : Position) : List Byte → List (List Byte) → Transaction → Prop :=
  Due s h ((s.jobCommands p.job).drop p.idx.toNat) (s.jobBlocks p.ptr.toNat p.job)

/-- What a step of an operation that writes leaves: it completed, or its write due was answered `Error`, or it waits. -/
theorem onNext_resume_writes {P : State → Prop} {s : State} {p : Position} (hp : s.seq = some p) (hj : p.job.writes = true)
    (hdone : ∀ h as rest, s.handle = some h → s.answers = as ++ rest → allOk as →
      as.length = ((s.jobCommands p.job).drop p.idx.toNat).length + (s.jobBlocks p.ptr.toNat p.job).length →
      P ((s.sent h ((s.jobCommands p.job).drop p.idx.toNat) (s.jobBlocks p.ptr.toNat p.job) rest).jobDone p.job))
    (hfail : ∀ h cs bs t as e rest, s.handle = some h → Sending s h p cs bs t → s.answers = as ++ e :: rest → allOk as →
      as.length = cs.length + bs.length → e.error = true →
      P (((s.sent h cs bs (e :: rest)).logged t e rest).jobFailed p.job))
    (hwait : ∀ h cs bs t, s.handle = some h → Sending s h p cs bs t → allOk s.answers →
      s.answers.length = cs.length + bs.length → P (s.sent h cs bs [])) :
    OnNext P (resume s) := by
  rw [resume_writes hp hj]
  cases hh : s.handle with
  | none => simp [sendAll, hh]
  | some h =>
    rcases sendAll_outcomes hh ((s.jobCommands p.job).drop p.idx.toNat) (s.jobBlocks p.ptr.toNat p.job)
        (State.jobDone p.job) (State.jobFailed p.job) with
      ⟨as, rest, ha, hok, hl, hr⟩ | ⟨cs, bs, t, as, e, rest, hd, ha, hok, hl, he, hr⟩ | ⟨cs, bs, t, hd, hok, hl, hr⟩
    · rw [hr]
      exact hdone h as rest hh ha hok hl
    · rw [hr]
      exact hfail h cs bs t as e rest hh hd ha hok hl he
    · rw [hr]
      exact hwait h cs bs t hh hd hok hl

section
variable {b : Int} {a : BitVec 7} {h w : Int} {s : State} {e : Answer} {rest : List Answer}

/-- No answer to the OPEN: CONSTRUCT waits (R143). -/
theorem openBus_waits (ha : s.answers = []) : openBus b a h w s = .next s := by simp [openBus, tx_nil ha]

/-- The OPEN is answered `Error` (R152). -/
theorem openBus_failed (ha : s.answers = e :: rest) (he : e.error = true) :
    openBus b a h w s = .next ((s.logged (.openBus b) e rest).respond .errResource 0#32) := by
  simp [openBus, tx_cons ha, he]

/-- The OPEN is answered with a handle (R150). -/
theorem openBus_opened (ha : s.answers = e :: rest) (he : e.error = false) :
    openBus b a h w s = .next (((s.logged (.openBus b) e rest).constructAs e.handle a h w).respond .ok 0#32) := by
  simp [openBus, tx_cons ha, he]

theorem Transaction.reply_openBus_error (he : e.error = true) : (Transaction.openBus b).reply e = .error := by
  simp [Transaction.reply, he]

theorem Transaction.reply_openBus_opened (he : e.error = false) :
    (Transaction.openBus b).reply e = .opened e.handle := by simp [Transaction.reply, he]

end

/-- What a step of a CONSTRUCT leaves: it waits, or the bus did not open, or the block is constructed (R150, R152). -/
theorem onNext_openBus {P : State → Prop} {b : Int} {a : BitVec 7} {h w : Int} {s : State}
    (hwait : s.answers = [] → P s)
    (hfail : ∀ e rest, s.answers = e :: rest → e.error = true →
      P ((s.logged (.openBus b) e rest).respond .errResource 0#32))
    (hdone : ∀ e rest, s.answers = e :: rest → e.error = false →
      P (((s.logged (.openBus b) e rest).constructAs e.handle a h w).respond .ok 0#32)) :
    OnNext P (openBus b a h w s) := by
  rcases openBus_cases b a h w s with ⟨ha, hr⟩ | ⟨e, rest, ha, he, hr⟩ | ⟨e, rest, ha, he, hr⟩
  · rw [hr]
    exact hwait ha
  · rw [hr]
    exact hfail e rest ha he
  · rw [hr]
    exact hdone e rest ha he

end Sys2Proof.Machine

/-! # What each instruction does on an idle block -/

namespace Sys2Proof.Machine

/-- What an instruction comes to on an idle block. -/
inductive Plan where
  /-- the machine refuses the instruction -/
  | refuse (r : Refusal)
  /-- the machine stops -/
  | fault (f : Fault)
  /-- `ERR_PRECOND`, the framebuffer being `m` -/
  | reject (m : Memory)
  /-- RELEASE -/
  | release
  /-- `OK` with the value `v`, the framebuffer being `m` -/
  | answer (m : Memory) (v : Slot)
  /-- the operation `job` is started, the framebuffer being `m` -/
  | send (m : Memory) (job : Job)

/-- The result of a plan. -/
def Plan.run (s : State) : Plan → Result
  | .refuse r => .refused r
  | .fault f => .fault f
  | .reject m => .next ((s.withFb m).respond .errPrecond 0#32)
  | .release => .next (s.released.respond .ok 0#32)
  | .answer m v => .next ((s.withFb m).respond .ok v)
  | .send m job => start job (s.withFb m)

/-- `Meaning s i p`: on an idle block in state `s` the instruction `i` comes to `p`. The rules are those of the instructions'
sections (40_bitmap_ops.md, 42_lifecycle_ops.md, 43_init_sequence.md, 44_flush_and_commands.md), with the common state check
(R29) as one rule for all. -/
inductive Meaning (s : State) : Instr → Plan → Prop
  | refused {i : Instr} {r : Refusal} (hr : isRequest i = false) (h : ∀ u, exec i u = .refused r) :
      Meaning s i (.refuse r)
  | uninitialized {i : Instr} (hl : s.lstate = .uninitialized) (hi : isRequest i = true ∨ isSentCommand i = true)
      (hrel : i ≠ .release) (hcon : ∀ b a h w, i ≠ .construct b a h w) : Meaning s i (.reject s.fb)
  | reserved14 : Meaning s .reserved14 (.reject s.fb)
  | reserved15 : Meaning s .reserved15 (.reject s.fb)
  | constructRefused {b : Int} {a : BitVec 7} {h w : Int}
      (hd : ¬ (s.lstate = .uninitialized ∧ dimsOk h w s.cfg = true)) : Meaning s (.construct b a h w) (.reject s.fb)
  | construct {b : Int} {a : BitVec 7} {h w : Int} (hl : s.lstate = .uninitialized) (hd : dimsOk h w s.cfg = true) :
      Meaning s (.construct b a h w) (.send s.fb (.construct b a h w))
  | release : Meaning s .release .release
  | getPages (hl : s.lstate ≠ .uninitialized) : Meaning s .getPages (.answer s.fb (s.pages.setWidth 32))
  | scrollCfg {d v : Slot} (hl : s.lstate ≠ .uninitialized) : Meaning s (.scrollCfg d v) (.answer s.fb 0#32)
  | clear (hl : s.lstate ≠ .uninitialized) : Meaning s .clear (.answer [] 0#32)
  | drawPixel {x y : Int} {on : Bool} {m : Memory} (hl : s.lstate ≠ .uninitialized)
      (hd : s.drawPixel x y on = .ok (s.withFb m)) : Meaning s (.drawPixel x y on) (.answer m 0#32)
  | drawPixelFault {x y : Int} {on : Bool} {f : Fault} (hl : s.lstate ≠ .uninitialized)
      (hd : s.drawPixel x y on = .error f) : Meaning s (.drawPixel x y on) (.fault f)
  | clearBlock {x0 y0 dx dy : Int} (hl : s.lstate ≠ .uninitialized) :
      Meaning s (.clearBlock x0 y0 dx dy) (.answer (Memory.andMask (s.keepMask x0 y0 dx dy) s.fb) 0#32)
  | writeRawRefused {v : Byte} {o : Int} (hl : s.lstate ≠ .uninitialized) (ho : o < 0 ∨ (s.size : Int) ≤ o) :
      Meaning s (.writeRaw v o) (.reject s.fb)
  | writeRaw {v : Byte} {o : Int} (hl : s.lstate ≠ .uninitialized) (h0 : 0 ≤ o) (hN : o < s.size) :
      Meaning s (.writeRaw v o) (.answer (Memory.write s.fb o.toNat v) 0#32)
  | init (hl : s.lstate ≠ .uninitialized) : Meaning s .init (.send s.fb .init)
  | flushRefused (hl : s.lstate = .busAcquired) : Meaning s .flush (.reject s.fb)
  | flush (hf : s.flushable = true) : Meaning s .flush (.send s.fb .flush)
  | clearFlushRefused (hl : s.lstate = .busAcquired) : Meaning s .clearFlush (.reject [])
  | clearFlush (hf : s.flushable = true) : Meaning s .clearFlush (.send [] .clearFlush)
  | setStartLine {o : Byte} (hl : s.lstate ≠ .uninitialized) :
      Meaning s (.setStartLine o) (.send s.fb (.command 5#4 (startLineByte o)))
  | actScroll (hl : s.lstate ≠ .uninitialized) : Meaning s .actScroll (.send s.fb (.command 7#4 0x2F#8))
  | deactScroll (hl : s.lstate ≠ .uninitialized) : Meaning s .deactScroll (.send s.fb (.command 8#4 0x2E#8))
  | wire {i : Instr} (hl : s.lstate ≠ .uninitialized) (hi : isSentCommand i = true) :
      Meaning s i (.send s.fb (.wire (encode i).wireBytes))

/-! ## The rules are those of the model -/

/-- A wire command that the block sends is its encoded bytes (R92). -/
theorem exec_sentCommand {i : Instr} (hi : isSentCommand i = true) : exec i = sendWire (encode i).wireBytes := by
  cases i with
  | memoryMode | columnAddr | pageAddr | deactivateScroll | activateScroll | setStartLineBase | setContrast | chargePump
  | segRemapBase | normalDisplay | setMultiplex | displayOff | displayOn | comScanDec | setDisplayOffset
  | setDisplayClockDiv | setPrecharge | setComPins | setVcomDetect => rfl
  | _ => cases hi

/-- The names that no request and no sent command is are refused in every state (R97, R98). -/
theorem exec_refused {i : Instr} (hr : isRequest i = false) (hs : isSentCommand i = false) :
    ∃ r, ∀ s, exec i s = .refused r := by
  cases i with
  | setLowColumn | setHighColumn | rightHorizontalScroll | leftHorizontalScroll | verticalAndRightHorizontalScroll
  | verticalAndLeftHorizontalScroll | setVerticalScrollArea | displayAllOnResume | displayAllOn | invertDisplay
  | comScanInc | memoryModeVert | memoryModePage | externalVcc | switchCapVcc => exact ⟨_, fun _ => rfl⟩
  | construct | init | flush | clear | clearFlush | setStartLine | writeRaw | actScroll | deactScroll | scrollCfg
  | getPages | drawPixel | clearBlock | release | reserved14 | reserved15 => cases hr
  | _ => cases hs

section
variable {s : State} (hb : s.busy = false)
include hb

/-- The common state check refuses every request but CONSTRUCT and RELEASE, and every sent command, in `Uninitialized`
(R29, R120, R140). -/
theorem exec_uninitialized (hl : s.lstate = .uninitialized) {i : Instr}
    (hi : isRequest i = true ∨ isSentCommand i = true) (hrel : i ≠ .release) (hcon : ∀ b a h w, i ≠ .construct b a h w) :
    exec i s = .next (s.respond .errPrecond 0#32) := by
  have hguard : ∀ op, whenIdle s (fun s => whenConstructed s op) = .next (s.respond .errPrecond 0#32) := fun op => by
    rw [whenIdle_idle hb, whenConstructed_uninitialized hl]
  rcases hi with hi | hi
  · cases i with
    | construct b a h w => exact absurd rfl (hcon b a h w)
    | release => exact absurd rfl hrel
    | reserved14 | reserved15 => simp [exec, execReserved14, execReserved15, whenIdle_idle hb]
    | flush =>
      change execFlush s = _
      simp [execFlush, whenIdle_idle hb, State.flushable, hl]
    | init | clear | clearFlush | setStartLine | writeRaw | actScroll | deactScroll | scrollCfg | getPages | drawPixel
    | clearBlock => exact hguard _
    | _ => cases hi
  · rw [exec_sentCommand hi]
    exact hguard _

/-- On an idle block an instruction has the result of its plan. -/
theorem exec_of_meaning {i : Instr} {p : Plan} (hm : Meaning s i p) : exec i s = p.run s := by
  have hpass : s.lstate ≠ .uninitialized → ∀ op, whenIdle s (fun s => whenConstructed s op) = op s :=
    whenIdle_whenConstructed_pass hb
  cases hm with
  | refused _ h => exact h s
  | uninitialized hl hi hrel hcon => exact exec_uninitialized hb hl hi hrel hcon
  | reserved14 | reserved15 | release =>
    simp only [exec, execReserved14, execReserved15, execRelease, whenIdle_idle hb]
    rfl
  | constructRefused hd =>
    rcases execConstruct_cases hb _ _ _ _ with ⟨-, hx⟩ | ⟨hl, hd', -⟩
    · exact hx
    · exact absurd ⟨hl, hd'⟩ hd
  | construct hl hd =>
    rcases execConstruct_cases hb _ _ _ _ with ⟨hn, -⟩ | ⟨-, -, hx⟩
    · exact absurd ⟨hl, hd⟩ hn
    · exact hx
  | getPages hl | scrollCfg hl | clear hl | clearBlock hl => exact hpass hl _
  | drawPixel hl hd => exact exec_drawPixel_ok hb hl hd
  | drawPixelFault hl hd => exact (hpass hl _).trans (by simp [hd, Plan.run])
  | writeRawRefused hl ho => exact (hpass hl _).trans (if_pos ho)
  | writeRaw hl h0 hN =>
    have hrange : ¬ (_ ∨ _) := not_or.2 ⟨not_lt.2 h0, not_le.2 hN⟩
    refine (hpass hl _).trans ((if_neg hrange).trans ?_)
    have hlt : Int.toNat _ < s.size := (Int.toNat_lt h0).2 hN
    simp [State.memWrite, hlt, Plan.run]
  | init hl | setStartLine hl | actScroll hl | deactScroll hl => exact hpass hl _
  | flushRefused hl =>
    change execFlush s = _
    rw [execFlush, whenIdle_idle hb, if_neg (by simp [State.flushable, hl])]
    rfl
  | flush hf =>
    change execFlush s = _
    rw [execFlush, whenIdle_idle hb, if_pos hf]
    rfl
  | clearFlushRefused hl =>
    exact (hpass (by simp [hl]) _).trans (if_neg (by simp [State.flushable, hl]))
  | clearFlush hf =>
    exact (hpass ((State.constructed_iff s).1 (State.constructed_of_flushable s hf)) _).trans (if_pos hf)
  | wire hl hi =>
    rw [exec_sentCommand hi]
    exact hpass hl _

end

/-! ## Every instruction has a meaning in every state -/

/-- A constructed block may flush, or is in `BusAcquired` (R21, R29). -/
theorem State.flushable_or_busAcquired {s : State} (hl : s.lstate ≠ .uninitialized) :
    s.flushable = true ∨ s.lstate = .busAcquired := by
  cases h : s.lstate with
  | uninitialized => exact absurd h hl
  | busAcquired => exact .inr rfl
  | deviceInitialized | displaying => simp [State.flushable, h]

/-- A request has a meaning on a constructed block. -/
theorem exists_meaning_of_constructed {s : State} (hl : s.lstate ≠ .uninitialized) {i : Instr} (hi : isRequest i = true) :
    ∃ p, Meaning s i p := by
  cases i with
  | construct b a h w => exact ⟨_, .constructRefused fun hc => hl hc.1⟩
  | init => exact ⟨_, .init hl⟩
  | flush => exact (State.flushable_or_busAcquired hl).elim (fun h => ⟨_, .flush h⟩) (fun h => ⟨_, .flushRefused h⟩)
  | clear => exact ⟨_, .clear hl⟩
  | clearFlush =>
    exact (State.flushable_or_busAcquired hl).elim (fun h => ⟨_, .clearFlush h⟩) (fun h => ⟨_, .clearFlushRefused h⟩)
  | setStartLine o => exact ⟨_, .setStartLine hl⟩
  | writeRaw v o =>
    by_cases ho : o < 0 ∨ (s.size : Int) ≤ o
    · exact ⟨_, .writeRawRefused hl ho⟩
    · exact ⟨_, .writeRaw hl (by omega) (by omega)⟩
  | actScroll => exact ⟨_, .actScroll hl⟩
  | deactScroll => exact ⟨_, .deactScroll hl⟩
  | scrollCfg d v => exact ⟨_, .scrollCfg hl⟩
  | getPages => exact ⟨_, .getPages hl⟩
  | drawPixel x y on =>
    cases hd : s.drawPixel x y on with
    | ok t =>
      obtain ⟨m, rfl⟩ := State.drawPixel_ok hd
      exact ⟨_, .drawPixel hl hd⟩
    | error f => exact ⟨_, .drawPixelFault hl hd⟩
  | clearBlock x0 y0 dx dy => exact ⟨_, .clearBlock hl⟩
  | release => exact ⟨_, .release⟩
  | reserved14 => exact ⟨_, .reserved14⟩
  | reserved15 => exact ⟨_, .reserved15⟩
  | _ => cases hi

theorem exists_meaning (s : State) (i : Instr) : ∃ p, Meaning s i p := by
  cases hr : isRequest i with
  | false =>
    cases hs : isSentCommand i with
    | false =>
      obtain ⟨r, h⟩ := exec_refused hr hs
      exact ⟨_, .refused hr h⟩
    | true =>
      by_cases hl : s.lstate = .uninitialized
      · exact ⟨_, .uninitialized hl (.inr hs) (by rintro rfl; cases hs) (by rintro _ _ _ _ rfl; cases hs)⟩
      · exact ⟨_, .wire hl hs⟩
  | true =>
    by_cases hl : s.lstate = .uninitialized
    · by_cases hrel : i = .release
      · subst hrel
        exact ⟨_, .release⟩
      · by_cases hcon : ∃ b a h w, i = .construct b a h w
        · obtain ⟨b, a, h, w, rfl⟩ := hcon
          cases hd : dimsOk h w s.cfg with
          | true => exact ⟨_, .construct hl hd⟩
          | false => exact ⟨_, .constructRefused (by simp [hd])⟩
        · exact ⟨_, .uninitialized hl (.inl hr) hrel fun b a h w hi => hcon ⟨b, a, h, w, hi⟩⟩
    · exact exists_meaning_of_constructed hl hr

theorem OnNext.mono {P Q : State → Prop} {r : Result} (h : OnNext P r) (hpq : ∀ t, P t → Q t) : OnNext Q r := by
  cases r with
  | next t => exact hpq t h
  | fault | refused => trivial

/-- What holds of the next state of every plan an instruction can come to holds of its next state. -/
theorem onNext_exec {P : State → Prop} {s : State} (hb : s.busy = false) (i : Instr)
    (h : ∀ p, Meaning s i p → OnNext P (p.run s)) : OnNext P (exec i s) := by
  obtain ⟨p, hm⟩ := exists_meaning s i
  rw [exec_of_meaning hb hm]
  exact h p hm

/-! ## A step -/

/-- The block with its host side and its preloaded code changed: what taking a code leaves (R30, R60). -/
def State.withInputs (s : State) (inbox : List ReqWord) (preload : Option Code) : State :=
  { s with inbox := inbox, preload := preload }

section
variable {s : State}

/-- A reset between operations is served (R230). -/
theorem step_reset (hr : s.resetLine = true) (hb : s.busy = false) : step s = .next s.hardReset := by simp [step, hr, hb]

/-- A reset of a busy block is refused (R231). -/
theorem step_reset_busy (hr : s.resetLine = true) (hb : s.busy = true) : step s = .refused .resetWhileBusy := by
  simp [step, hr, hb]

/-- A busy block goes on with its operation (R30). -/
theorem step_busy (hr : s.resetLine = false) (hb : s.busy = true) : step s = resume s := by simp [step, hr, hb]

/-- An idle block runs the preloaded code first. -/
theorem step_preload (hr : s.resetLine = false) (hb : s.busy = false) {c : Code} (hp : s.preload = some c) :
    step s = runCode c (s.withInputs s.inbox none) := by
  simp [step, State.withInputs, hr, hb, hp]

/-- An idle block takes the first request presented (R60). -/
theorem step_request (hr : s.resetLine = false) (hb : s.busy = false) (hp : s.preload = none) {w : ReqWord}
    {rest : List ReqWord} (hw : s.inbox = w :: rest) : step s = exec (decodeRequest w) (s.withInputs rest s.preload) := by
  simp [step, State.withInputs, hr, hb, hp, hw, runCode, decode]

/-- An idle block with nothing to do waits (R36). -/
theorem step_wait (hr : s.resetLine = false) (hb : s.busy = false) (hp : s.preload = none) (hw : s.inbox = []) :
    step s = .next s := by simp [step, hr, hb, hp, hw]

/-- What a step can do: serve the reset line, go on with the operation in progress, run an instruction, or nothing. -/
theorem onNext_step {P : State → Prop} (hreset : s.resetLine = true → P s.hardReset)
    (hresume : s.busy = true → OnNext P (resume s))
    (hexec : s.busy = false → ∀ i inbox preload, OnNext P (exec i (s.withInputs inbox preload)))
    (hwait : P s) : OnNext P (step s) := by
  cases hr : s.resetLine with
  | true =>
    cases hb : s.busy with
    | true => simp [step_reset_busy hr hb]
    | false => simpa [step_reset hr hb] using hreset hr
  | false =>
    cases hb : s.busy with
    | true => simpa [step_busy hr hb] using hresume hb
    | false =>
      cases hp : s.preload with
      | some c =>
        rw [step_preload hr hb hp, runCode]
        split
        · exact hexec hb _ _ _
        · trivial
      | none =>
        cases hw : s.inbox with
        | nil => simpa [step_wait hr hb hp hw] using hwait
        | cons w rest =>
          rw [step_request hr hb hp hw]
          exact hexec hb _ _ _

end

end Sys2Proof.Machine

/-! # The invariant (10_state.md R27) -/

namespace Sys2Proof.Machine

/-! ## Positions -/

/-- Which states permit an operation that writes (R29, R140). -/
def State.permits (s : State) : Job → Prop
  | .construct _ _ _ _ => False
  | .init => s.lstate ≠ .uninitialized
  | .flush => s.flushable = true
  | .clearFlush => s.flushable = true ∧ s.fb = []
  | .command op _ => s.lstate ≠ .uninitialized ∧ (op = 5#4 ∨ op = 7#4 ∨ op = 8#4)
  | .wire bytes => s.lstate ≠ .uninitialized ∧ bytes.length ≤ 3

/-- A position at which a write is due: a command byte, or a block that begins at a multiple of 16 bytes short of `N`
(R31, R182). -/
def State.standsAt (s : State) (p : Position) : Prop :=
  p.idx.toNat < (s.jobCommands p.job).length ∧ p.ptr = 0#17 ∨
    p.idx.toNat = (s.jobCommands p.job).length ∧ (p.job = .flush ∨ p.job = .clearFlush) ∧ p.ptr.toNat < s.size ∧
      p.ptr.toNat % 16 = 0

theorem State.flushPositionOk_iff {s : State} {p : Position} : s.flushPositionOk p = true ↔
    p.idx.toNat < 6 ∧ p.ptr = 0#17 ∨ p.idx.toNat = 6 ∧ p.ptr.toNat < s.size ∧ p.ptr.toNat % 16 = 0 := by
  simp [State.flushPositionOk]

/-- The legal positions of an operation that writes: permitted, and a write is due. -/
theorem State.positionOk_iff {s : State} {p : Position} (hj : p.job.writes = true) :
    s.positionOk p = true ↔ s.permits p.job ∧ s.standsAt p := by
  obtain ⟨job, idx, ptr⟩ := p
  cases job with
  | construct => cases hj
  | init | flush | clearFlush | wire =>
    simp [State.positionOk, State.permits, State.standsAt, State.jobCommands, State.windowCmds, initRom_length,
      State.constructed_iff, State.flushPositionOk_iff, and_assoc, and_comm]
  | command op b =>
    have hidx : idx.toNat < 1 ↔ idx = 0#5 := by
      rw [← BitVec.toNat_inj]
      exact Nat.lt_one_iff
    simp [State.positionOk, State.permits, State.standsAt, State.jobCommands, State.constructed_iff, hidx, and_assoc]

/-- An operation that writes has at most the 24 command bytes of INIT (R166, R181). -/
theorem State.jobCommands_length_le {s : State} {job : Job} (hp : s.permits job) : (s.jobCommands job).length ≤ 24 := by
  cases job with
  | construct => cases hp
  | init | flush | clearFlush | command => simp [State.jobCommands, initRom_length, State.windowCmds]
  | wire bytes => exact Nat.le_trans hp.2 (by decide)

/-- Only a flush has blocks, and they are those of the framebuffer (R182). -/
theorem State.jobBlocks_cases (s : State) (ptr : Nat) (job : Job) :
    (job = .flush ∨ job = .clearFlush) ∧ s.jobBlocks ptr job = s.dataBlocks ptr ∨ s.jobBlocks ptr job = [] := by
  cases job <;> simp [State.jobBlocks]

/-- The framebuffer of a block under the invariant holds at most 65536 bytes (R10, D6). -/
theorem State.Inv.size_le {s : State} (hs : s.Inv) : s.size ≤ 65536 := by
  by_cases hl : s.lstate = .uninitialized
  · obtain ⟨hwidth, -, -⟩ := hs.lifecycle.1 hl
    simp [State.size, hwidth]
  · obtain ⟨-, hwidth, -, hpages, -, -⟩ := hs.geometry hl
    exact Nat.mul_le_mul hwidth hpages

/-- Blocks before another one are full, and the others begin where they end (R182). -/
theorem State.dataBlocks_split {s : State} {b : List Byte} {after : List (List Byte)} : ∀ {bs : List (List Byte)} {ptr : Nat},
    s.dataBlocks ptr = bs ++ b :: after → bs.flatten.length = 16 * bs.length ∧ ptr + 16 * bs.length < s.size ∧
      s.dataBlocks (ptr + 16 * bs.length) = b :: after
  | bs, ptr, hsplit => by
    have hptr : ptr < s.size := by
      by_contra hend
      rw [State.dataBlocks_end s (Nat.le_of_not_lt hend)] at hsplit
      simp at hsplit
    cases bs with
    | nil => exact ⟨rfl, hptr, hsplit⟩
    | cons c bs =>
      rw [State.dataBlocks_step s hptr, List.cons_append, List.cons.injEq] at hsplit
      obtain ⟨rfl, hsplit⟩ := hsplit
      obtain ⟨hfull, hlt, hrest⟩ := State.dataBlocks_split hsplit
      have hnext : ptr + 16 + 16 * bs.length = ptr + 16 * (bs.length + 1) := by omega
      rw [List.flatten_cons, List.length_append, State.memRead_length, hfull, List.length_cons, ← hnext]
      exact ⟨by omega, hlt, hrest⟩

/-- The position after the command bytes `cs` and the blocks `bs` (R31). -/
def Position.after (p : Position) (cs : List Byte) (bs : List (List Byte)) : Position :=
  { p with idx := p.idx + BitVec.ofNat 5 cs.length, ptr := p.ptr + BitVec.ofNat 17 bs.flatten.length }

theorem State.sent_seq_of_some {s : State} {p : Position} (hp : s.seq = some p) (h : Handle) (cs : List Byte)
    (bs : List (List Byte)) (rest : List Answer) : (s.sent h cs bs rest).seq = some (p.after cs bs) := by
  rw [State.sent_seq, hp]
  rfl

/-- `SEQ_IDX` does not wrap: it counts at most 24 bytes (R31). -/
theorem Position.after_idx {p : Position} {cs : List Byte} (h : p.idx.toNat + cs.length ≤ 24) (bs : List (List Byte)) :
    (p.after cs bs).idx.toNat = p.idx.toNat + cs.length := by
  simp only [Position.after, BitVec.toNat_add, BitVec.toNat_ofNat]
  omega

/-- `FB_PTR` does not wrap: it stays below the largest framebuffer (R31). -/
theorem Position.after_ptr {p : Position} {bs : List (List Byte)} (h : p.ptr.toNat + bs.flatten.length ≤ 65536)
    (cs : List Byte) : (p.after cs bs).ptr.toNat = p.ptr.toNat + bs.flatten.length := by
  simp only [Position.after, BitVec.toNat_add, BitVec.toNat_ofNat]
  omega

/-- Elements sent before one that is due leave at least that one. -/
theorem add_length_lt_of_drop_eq {α : Type} {xs cs after : List α} {b : α} {n : Nat} (h : xs.drop n = cs ++ b :: after) :
    n + cs.length < xs.length := by
  have hcount := congrArg List.length h
  simp only [List.length_drop, List.length_append, List.length_cons] at hcount
  omega

/-- Where an operation waits, what is left is what the position there says, and the position is a legal one. -/
theorem Due.after {s : State} {h : Handle} {p : Position} {cs : List Byte} {bs : List (List Byte)} {t : Transaction}
    (hN : s.size ≤ 65536) (hp : s.permits p.job) (hs : s.standsAt p) (hd : Sending s h p cs bs t) :
    (s.jobCommands p.job).drop p.idx.toNat = cs ++ (s.jobCommands p.job).drop (p.after cs bs).idx.toNat ∧
      s.jobBlocks p.ptr.toNat p.job = bs ++ s.jobBlocks (p.after cs bs).ptr.toNat p.job ∧
      (bs = [] ∨ (s.jobCommands p.job).drop (p.after cs bs).idx.toNat = []) ∧ s.standsAt (p.after cs bs) := by
  have hlen := State.jobCommands_length_le hp
  cases hd with
  | @command _ after b split =>
    have hlt := add_length_lt_of_drop_eq split
    have hidx := Position.after_idx (p := p) (cs := cs) (by omega) []
    have hptr : (p.after cs []).ptr = p.ptr := by simp [Position.after]
    have hdrop : (s.jobCommands p.job).drop (p.idx.toNat + cs.length) = b :: after := by
      rw [← List.drop_drop, split, List.drop_left]
    rw [hidx, hptr, hdrop]
    refine ⟨split, rfl, .inl rfl, .inl ⟨by rw [hidx]; exact hlt, ?_⟩⟩
    rcases hs with ⟨-, h0⟩ | ⟨hend, -⟩
    · rw [hptr, h0]
    · omega
  | @block _ after b split =>
    rcases s.jobBlocks_cases p.ptr.toNat p.job with ⟨hflush, hblocks⟩ | hnone
    · obtain ⟨hfull, hlt, hrest⟩ := State.dataBlocks_split (hblocks ▸ split)
      have hle : p.idx.toNat ≤ (s.jobCommands p.job).length := by
        rcases hs with ⟨hlt, -⟩ | ⟨heq, -⟩ <;> omega
      have halign : p.ptr.toNat % 16 = 0 := by
        rcases hs with ⟨-, h0⟩ | ⟨-, -, -, hmod⟩
        · simp [h0]
        · exact hmod
      have hidx := Position.after_idx (p := p) (cs := (s.jobCommands p.job).drop p.idx.toNat)
        (by rw [List.length_drop]; omega) bs
      have hptr := Position.after_ptr (p := p) (bs := bs) (by omega) ((s.jobCommands p.job).drop p.idx.toNat)
      rw [List.length_drop, Nat.add_sub_cancel' hle] at hidx
      rw [hfull] at hptr
      have hnext : s.jobBlocks (p.ptr.toNat + 16 * bs.length) p.job = b :: after := by
        rw [← hrest]
        rcases hflush with hf | hf <;> rw [hf] <;> rfl
      refine ⟨?_, by rw [hptr, hnext, split], .inr ?_, .inr ⟨hidx, hflush, by rw [hptr]; exact hlt, by rw [hptr]; omega⟩⟩
      · rw [hidx, List.drop_length, List.append_nil]
      · rw [hidx, List.drop_length]
    · rw [hnone] at split
      simp at split

/-! ## Updates that keep the invariant -/

section
variable {s : State} (hs : s.Inv)
include hs

/-- The requests and the preloaded code are no part of the invariant. -/
theorem State.Inv.withInputs (inbox : List ReqWord) (preload : Option Code) : (s.withInputs inbox preload).Inv :=
  ⟨hs.lifecycle, hs.geometry, hs.framebuffer, hs.handle, hs.address, hs.response, hs.sequencer⟩

/-- Nor are the history and the answers. -/
theorem State.Inv.withHistory (trace : List TraceEntry) (answers : List Answer) :
    { s with trace := trace, answers := answers }.Inv :=
  ⟨hs.lifecycle, hs.geometry, hs.framebuffer, hs.handle, hs.address, hs.response, hs.sequencer⟩

/-- A response ends the operation; an error response carries no value (R86, R201). -/
theorem State.Inv.respond {st : Status} {v : Slot} (hv : st ≠ .ok → v = 0#32) : (s.respond st v).Inv :=
  ⟨hs.lifecycle, hs.geometry, hs.framebuffer, hs.handle, hs.address, hv, nofun⟩

/-- A constructed block may be left in any lifecycle state that holds the bus (R21, R28). -/
theorem State.Inv.setLState_respond {l : LState} {st : Status} (hl : s.lstate ≠ .uninitialized) (hl' : l ≠ .uninitialized) :
    ((s.setLState l).respond st 0#32).Inv where
  lifecycle := ⟨fun h => absurd h hl', fun h => absurd (hs.lifecycle.2 h) hl⟩
  geometry := fun _ => hs.geometry hl
  framebuffer := hs.framebuffer
  handle := ⟨fun _ => hl', fun _ => hs.handle.2 hl⟩
  address := fun h => absurd h hl'
  response := fun _ => rfl
  sequencer := nofun

/-- An idle block's framebuffer may be any in canonical form inside `0 .. N-1` (R26). -/
theorem State.Inv.withFb (hb : s.busy = false) {m : Memory} (hm : Memory.wf m = true ∧ Memory.below s.size m = true) :
    (s.withFb m).Inv :=
  ⟨hs.lifecycle, hs.geometry, hm, hs.handle, hs.address, hs.response, by
    simp [State.SequencerInv, (State.busy_eq_false_iff s).1 hb]⟩

end

/-- What reset leaves, and RELEASE with `TRACE` kept, meets the invariant (R36, R154). -/
theorem State.reset_inv (trace : List TraceEntry) (cfg : Config) (inbox : List ReqWord) (answers : List Answer)
    (resetLine : Bool) (preload : Option Code) :
    { State.reset with
      trace := trace, cfg := cfg, inbox := inbox, answers := answers, resetLine := resetLine, preload := preload }.Inv where
  lifecycle := ⟨fun _ => ⟨rfl, rfl, rfl⟩, fun _ => rfl⟩
  geometry := fun h => absurd rfl h
  framebuffer := ⟨rfl, rfl⟩
  handle := ⟨nofun, fun h => absurd rfl h⟩
  address := fun _ => rfl
  response := fun _ => rfl
  sequencer := nofun

/-- A successful CONSTRUCT leaves a block under the invariant (R150, R151). -/
theorem State.Inv.constructAs {s : State} {handle : Handle} {addr : BitVec 7} {height width : Int}
    (hd : dimsOk height width s.cfg = true) : ((s.constructAs handle addr height width).respond .ok 0#32).Inv := by
  obtain ⟨hpos, hmod, wpos, wmax, pmax, hcap⟩ := dimsOk_iff.1 hd
  obtain ⟨hwidth, hheight, hpages⟩ := toNat_ofInt_of_dimsOk hd
  have width_ne : BitVec.ofInt 9 width ≠ 0#9 := fun h => by simp [h] at hwidth; omega
  refine ⟨⟨nofun, fun h => absurd h.1 width_ne⟩, fun _ => ?_, ⟨rfl, rfl⟩, ⟨fun _ => nofun, fun _ => rfl⟩, nofun,
    fun _ => rfl, nofun⟩
  have hsize : ((BitVec.ofInt 9 width).toNat * (BitVec.ofInt 9 (height / 8)).toNat : Nat) = width * (height / 8) := by
    rw [Nat.cast_mul, hwidth, hpages]
  simp only [State.size, State.respond_width, State.respond_pages, State.respond_height, State.respond_cfg,
    State.constructAs_width, State.constructAs_pages, State.constructAs_height, State.constructAs_cfg, Config.maxWidth,
    Config.maxPages]
  omega

/-! ## A step keeps the invariant -/

theorem Job.lstateDone_ne {l : LState} (hl : l ≠ .uninitialized) (job : Job) : job.lstateDone l ≠ .uninitialized := by
  cases job <;> simp [Job.lstateDone, hl]

theorem Job.lstateFailed_ne {l : LState} (hl : l ≠ .uninitialized) (job : Job) : job.lstateFailed l ≠ .uninitialized := by
  cases job <;> simp [Job.lstateFailed, hl]

/-- An operation that writes is permitted in a constructed block only (R29, R140). -/
theorem State.permits.constructed {s : State} {job : Job} (hp : s.permits job) : s.lstate ≠ .uninitialized := by
  cases job with
  | construct => cases hp
  | init => exact hp
  | flush => exact (State.constructed_iff s).1 (State.constructed_of_flushable s hp)
  | clearFlush => exact (State.constructed_iff s).1 (State.constructed_of_flushable s hp.1)
  | command | wire => exact hp.1

section
variable {s : State} (hs : s.Inv) {p : Position} (hp : s.seq = some p)
include hs hp

/-- The position of a block under the invariant that writes is a legal one. -/
theorem State.Inv.position (hj : p.job.writes = true) : s.permits p.job ∧ s.standsAt p :=
  (State.positionOk_iff hj).1 (hs.sequencer p hp)

/-- Where an operation waits, the invariant still holds. -/
theorem State.Inv.sent (hj : p.job.writes = true) {h : Handle} {cs : List Byte} {bs : List (List Byte)} {t : Transaction}
    (hd : Sending s h p cs bs t) (rest : List Answer) : (s.sent h cs bs rest).Inv := by
  obtain ⟨hpermits, hstands⟩ := hs.position hp hj
  obtain ⟨-, -, -, hstands'⟩ := hd.after hs.size_le hpermits hstands
  refine ⟨hs.lifecycle, hs.geometry, hs.framebuffer, hs.handle, hs.address, hs.response, fun q hq => ?_⟩
  rw [State.sent_seq_of_some hp, Option.mem_some_iff] at hq
  subst hq
  exact (State.positionOk_iff (p := p.after cs bs) hj).2 ⟨hpermits, hstands'⟩

end

/-- Going on with the operation in progress keeps the invariant. -/
theorem resume_keeps_inv {s : State} (hs : s.Inv) : OnNext State.Inv (resume s) := by
  cases hp : s.seq with
  | none => rwa [resume_idle hp]
  | some p =>
    cases hj : p.job.writes with
    | true =>
      have hl := (hs.position hp hj).1.constructed
      refine onNext_resume_writes hp hj (fun h as rest _ _ _ _ => ?_) (fun h cs bs t as e rest _ _ _ _ _ _ => ?_)
        (fun h cs bs t _ hd _ _ => hs.sent hp hj hd [])
      · exact (hs.setLState_respond hl (Job.lstateDone_ne hl p.job)).withHistory _ rest
      · exact (hs.setLState_respond hl (Job.lstateFailed_ne hl p.job)).withHistory _ rest
    | false =>
      obtain ⟨job, idx, ptr⟩ := p
      cases job with
      | construct b a h w =>
        have hok := hs.sequencer _ hp
        simp only [State.positionOk, Bool.and_eq_true, decide_eq_true_eq] at hok
        obtain ⟨⟨-, hd⟩, -⟩ := hok
        rw [resume_construct hp]
        refine onNext_openBus (fun _ => hs) (fun e rest _ _ => ?_) (fun e rest _ _ => ?_)
        · exact (hs.respond (st := .errResource) fun _ => rfl).withHistory _ rest
        · exact State.Inv.constructAs hd
      | _ => cases hj

/-- The start of an operation that the state permits is a legal position (R30, R31). -/
theorem State.Inv.accepted {s : State} (hs : s.Inv) {job : Job} (hok : s.positionOk ⟨job, 0#5, 0#17⟩ = true) :
    (s.accepted job).Inv :=
  ⟨hs.lifecycle, hs.geometry, hs.framebuffer, hs.handle, hs.address, hs.response, fun _ hq =>
    Option.mem_some_iff.1 hq ▸ hok⟩

/-- A wire command that the block sends has one to three bytes (R92). -/
theorem wireBytes_length {i : Instr} (hi : isSentCommand i = true) :
    0 < (encode i).wireBytes.length ∧ (encode i).wireBytes.length ≤ 3 := by
  cases i with
  | memoryMode | columnAddr | pageAddr | deactivateScroll | activateScroll | setStartLineBase | setContrast | chargePump
  | segRemapBase | normalDisplay | setMultiplex | displayOff | displayOn | comScanDec | setDisplayOffset
  | setDisplayClockDiv | setPrecharge | setComPins | setVcomDetect => simp [encode, Code.wireBytes]
  | _ => cases hi

section
variable {s : State} (hs : s.Inv) (hb : s.busy = false) {i : Instr}
include hs hb

/-- The block that an instruction leaves busy is at the legal beginning of its operation (R30). -/
theorem Meaning.accepted_inv {m : Memory} {job : Job} (hm : Meaning s i (.send m job)) :
    ((s.withFb m).accepted job).Inv := by
  have hzero : ∀ {job}, (s.withFb []).positionOk ⟨job, 0#5, 0#17⟩ = true → ((s.withFb []).accepted job).Inv :=
    (hs.withFb hb ⟨rfl, rfl⟩).accepted
  cases hm with
  | construct hl hd => exact hs.accepted (by simp [State.positionOk, hl, hd])
  | init hl => exact hs.accepted (by simp [State.positionOk, (State.constructed_iff s).2 hl])
  | flush hf => exact hs.accepted (by simp [State.positionOk, hf, State.flushPositionOk])
  | clearFlush hf =>
    have hf' : (s.withFb []).flushable = true := hf
    exact hzero (by simp [State.positionOk, hf', State.flushPositionOk])
  | setStartLine hl | actScroll hl | deactScroll hl =>
    exact hs.accepted (by simp [State.positionOk, (State.constructed_iff s).2 hl])
  | wire hl hi =>
    exact hs.accepted (by simp [State.positionOk, (State.constructed_iff s).2 hl, wireBytes_length hi])

omit hb in
/-- The framebuffer that an instruction leaves is in canonical form inside `0 .. N-1` (R26). -/
theorem Meaning.framebuffer_answer {m : Memory} {v : Slot} (hm : Meaning s i (.answer m v)) :
    Memory.wf m = true ∧ Memory.below s.size m = true := by
  have hwrite : ∀ {o : Nat} (v : Byte), o < s.size →
      Memory.wf (Memory.write s.fb o v) = true ∧ Memory.below s.size (Memory.write s.fb o v) = true := fun v ho =>
    ⟨Memory.wf_write _ v hs.framebuffer.1, Memory.below_write ho hs.framebuffer.2⟩
  cases hm with
  | getPages | scrollCfg => exact hs.framebuffer
  | clear => exact ⟨rfl, rfl⟩
  | @drawPixel x y on m hl hd =>
    cases hxy : s.inBounds x y with
    | false =>
      rw [State.drawPixel_outOfBounds hxy] at hd
      have hfb : s.fb = m := congrArg State.fb (Except.ok.inj hd)
      exact hfb ▸ hs.framebuffer
    | true =>
      rw [State.drawPixel_inBounds hs hxy] at hd
      have hfb : Memory.write _ _ _ = m := congrArg State.fb (Except.ok.inj hd)
      exact hfb ▸ hwrite _ (State.pixelOffset_toNat_lt_size hs hxy)
  | clearBlock => exact ⟨Memory.wf_andMask _ hs.framebuffer.1, Memory.below_andMask _ hs.framebuffer.2⟩
  | writeRaw hl h0 hN => exact hwrite _ ((Int.toNat_lt h0).2 hN)

/-- An instruction on an idle block keeps the invariant. -/
theorem plan_keeps_inv {p : Plan} (hm : Meaning s i p) : OnNext State.Inv (p.run s) := by
  cases p with
  | refuse | fault => trivial
  | release => exact State.reset_inv _ _ _ _ _ _
  | answer m v => exact (hs.withFb hb (hm.framebuffer_answer hs)).respond nofun
  | send m job => exact resume_keeps_inv (hm.accepted_inv hs hb)
  | reject m =>
    have hm : m = s.fb ∨ m = [] := by
      cases hm with
      | clearFlushRefused => exact .inr rfl
      | _ => exact .inl rfl
    rcases hm with rfl | rfl
    · exact (hs.withFb hb hs.framebuffer).respond fun _ => rfl
    · exact (hs.withFb hb ⟨rfl, rfl⟩).respond fun _ => rfl

end

/-- Settles O51: a served reset and RELEASE leave the reset state; an instruction leaves the registers as they are or those
of a checked CONSTRUCT, and the framebuffer canonical; an operation that waits stands at the next write due. -/
theorem stepKeepsTheInvariant : Obligations.StepKeepsTheInvariant := by
  intro s t hs h
  refine (onNext_step (fun _ => ?_) (fun _ => resume_keeps_inv hs) (fun hb i inbox preload => ?_) hs).of_eq h
  · exact State.reset_inv [] _ _ _ _ _
  · exact onNext_exec (s := s.withInputs inbox preload) hb i fun p hm => plan_keeps_inv (hs.withInputs inbox preload) hb hm

end Sys2Proof.Machine

/-! # The history of transactions (10_state.md R21, R33; 20_memory.md R61) -/

namespace Sys2Proof.Machine

/-! ## FLUSH is permitted only after the whole initialization sequence (R232) -/

section
variable {s t : State}

/-- The initialization stays on record while `TRACE` only grows and handle and address stay. -/
theorem State.InitSent.mono (hs : s.InitSent) (hh : t.handle = s.handle) (ha : t.devAddr = s.devAddr)
    (htr : ∃ new, t.trace = s.trace ++ new) : t.InitSent := by
  obtain ⟨h, hsome, before, after, heq⟩ := hs
  obtain ⟨new, htr⟩ := htr
  refine ⟨h, hh.trans hsome, before, after ++ new, ?_⟩
  rw [ha, htr, ← heq]
  simp

theorem State.InitSent.sent (hs : s.InitSent) (h : Handle) (cs : List Byte) (bs : List (List Byte)) (rest : List Answer) :
    (s.sent h cs bs rest).InitSent :=
  hs.mono rfl rfl ⟨_, State.sent_trace s h cs bs rest⟩

theorem State.InitSent.logged (hs : s.InitSent) (tr : Transaction) (a : Answer) (rest : List Answer) :
    (s.logged tr a rest).InitSent :=
  hs.mono rfl rfl ⟨_, rfl⟩

theorem State.InitSent.setLState_respond (hs : s.InitSent) (l : LState) (st : Status) (v : Slot) :
    ((s.setLState l).respond st v).InitSent :=
  hs.mono rfl rfl ⟨[], by simp⟩

/-- An idle block that keeps the initialization on record, or that may not flush. -/
theorem State.InitHistoryInv.of_idle (hseq : t.seq = none) (hf : t.flushable = true → t.InitSent) : t.InitHistoryInv :=
  ⟨hf, by simp [hseq]⟩

/-- Whether FLUSH is permitted is a matter of `LSTATE` (R29). -/
theorem State.flushable_congr (h : t.lstate = s.lstate) : t.flushable = s.flushable := by simp [State.flushable, h]

/-- Commands on record at the end of `TRACE`, with those logged next. -/
theorem okCommands_suffix_append {h : Handle} {addr : BitVec 7} {xs ys : List Byte} {trace : List TraceEntry}
    (hx : okCommands h addr xs <:+ trace) : okCommands h addr (xs ++ ys) <:+ trace ++ okCommands h addr ys := by
  obtain ⟨before, rfl⟩ := hx
  exact ⟨before, by rw [okCommands_append, List.append_assoc]⟩

variable (hh : s.InitHistoryInv) {p : Position} (hp : s.seq = some p)
include hh hp

/-- A completed INIT has put the whole sequence on record; another operation that completed leaves FLUSH permitted only
where it was permitted before, so the sequence is on record already. -/
theorem jobDone_initHistory (hs : s.Inv) {h : Handle} {rest : List Answer} (hhandle : s.handle = some h)
    (hj : p.job.writes = true) :
    ((s.sent h ((s.jobCommands p.job).drop p.idx.toNat) (s.jobBlocks p.ptr.toNat p.job) rest).jobDone
      p.job).InitHistoryInv := by
  refine .of_idle rfl fun hf => ?_
  have hpermits := (hs.position hp hj).1
  have hkeep := fun hf => ((hh.flushable hf).sent h ((s.jobCommands p.job).drop p.idx.toNat)
    (s.jobBlocks p.ptr.toNat p.job) rest).setLState_respond (p.job.lstateDone s.lstate) .ok 0#32
  obtain ⟨job, idx, ptr⟩ := p
  cases job with
  | construct => cases hj
  | init =>
    obtain ⟨h', hsome, hsent⟩ := hh.inProgress _ hp rfl
    obtain rfl := Option.some.inj (hsome.symm.trans hhandle)
    refine ⟨h', hhandle, ?_⟩
    have hall := okCommands_suffix_append (ys := initRom.drop idx.toNat) hsent
    rw [List.take_append_drop] at hall
    simpa [State.jobDone, State.jobCommands, State.jobBlocks] using hall.isInfix
  | flush => exact hkeep hpermits
  | clearFlush => exact hkeep hpermits.1
  | command | wire => exact hkeep ((State.flushable_congr rfl).symm.trans hf)

omit hp in
/-- A failed INIT leaves a state in which FLUSH is not permitted; another operation that failed leaves `LSTATE`. -/
theorem jobFailed_initHistory {h : Handle} {cs : List Byte} {bs : List (List Byte)} {tr : Transaction} {e : Answer}
    {rest : List Answer} :
    (((s.sent h cs bs (e :: rest)).logged tr e rest).jobFailed p.job).InitHistoryInv := by
  refine .of_idle rfl fun hf => ?_
  have hkeep : s.flushable = true → (((s.sent h cs bs (e :: rest)).logged tr e rest).jobFailed p.job).InitSent :=
    fun hf => (((hh.flushable hf).sent h cs bs (e :: rest)).logged tr e rest).setLState_respond _ _ _
  rcases p.job.lstateFailed_cases s.lstate with hl | ⟨-, hl⟩
  · exact hkeep ((State.flushable_congr hl).symm.trans hf)
  · simp [State.flushable, State.jobFailed, hl] at hf

/-- Where an operation waits, an INIT has put on record what it has sent so far. -/
theorem sent_initHistory {h : Handle} {cs : List Byte} {bs : List (List Byte)} {tr : Transaction}
    (hhandle : s.handle = some h) (hd : Sending s h p cs bs tr) :
    (s.sent h cs bs []).InitHistoryInv := by
  refine ⟨fun hf => (hh.flushable hf).sent h cs bs [], fun q hq hinit => ?_⟩
  rw [State.sent_seq_of_some hp, Option.mem_some_iff] at hq
  subst hq
  obtain ⟨h', hsome, hsent⟩ := hh.inProgress p hp hinit
  obtain rfl := Option.some.inj (hsome.symm.trans hhandle)
  refine ⟨h', hhandle, ?_⟩
  have hjob : p.job = .init := hinit
  cases hd with
  | @command _ after b split =>
    rw [hjob] at split
    have hcs : initRom.take (p.idx.toNat + cs.length) = initRom.take p.idx.toNat ++ cs := by
      rw [List.take_add, show initRom.drop p.idx.toNat = cs ++ b :: after from split, List.take_left]
    have hlt := add_length_lt_of_drop_eq split
    rw [Position.after_idx (Nat.le_of_lt hlt), hcs]
    simpa using okCommands_suffix_append hsent
  | block split =>
    rw [hjob] at split
    simp [State.jobBlocks] at split

end

/-- Going on with the operation in progress keeps the history invariant. -/
theorem resume_keeps_initHistory {s : State} (hs : s.Inv) (hh : s.InitHistoryInv) :
    OnNext State.InitHistoryInv (resume s) := by
  cases hp : s.seq with
  | none => rwa [resume_idle hp]
  | some p =>
    cases hj : p.job.writes with
    | true =>
      exact onNext_resume_writes hp hj (fun h as rest hhandle _ _ _ => jobDone_initHistory hh hp hs hhandle hj)
        (fun h cs bs t as e rest _ _ _ _ _ _ => jobFailed_initHistory hh)
        (fun h cs bs t hhandle hd _ _ => sent_initHistory hh hp hhandle hd)
    | false =>
      obtain ⟨job, idx, ptr⟩ := p
      cases job with
      | construct b a h w =>
        have hok := hs.sequencer _ hp
        simp only [State.positionOk, Bool.and_eq_true, decide_eq_true_eq] at hok
        obtain ⟨⟨hl, -⟩, -⟩ := hok
        rw [resume_construct hp]
        refine onNext_openBus (fun _ => hh) (fun e rest _ _ => .of_idle rfl fun hf => ?_)
          (fun e rest _ _ => .of_idle rfl nofun)
        have hf' : s.flushable = true := hf
        simp [State.flushable, hl] at hf'
      | _ => cases hj

/-- An operation that an instruction starts has an empty record of its own. -/
theorem accepted_initHistory {s : State} {job : Job} (hs : (s.accepted job).Inv) (hh : s.InitHistoryInv) :
    (s.accepted job).InitHistoryInv := by
  refine ⟨hh.flushable, fun q hq hinit => ?_⟩
  obtain rfl := Option.mem_some_iff.1 hq
  have hl := (hs.position (p := ⟨job, 0#5, 0#17⟩) rfl (by rw [hinit]; rfl)).1.constructed
  obtain ⟨h, hsome⟩ := Option.isSome_iff_exists.1 (hs.handle.2 hl)
  exact ⟨h, hsome, List.nil_suffix⟩

/-- An instruction on an idle block keeps the history invariant. -/
theorem plan_keeps_initHistory {s : State} (hs : s.Inv) (hh : s.InitHistoryInv) (hb : s.busy = false) {i : Instr}
    {p : Plan} (hm : Meaning s i p) : OnNext State.InitHistoryInv (p.run s) := by
  cases p with
  | refuse | fault => trivial
  | reject | answer => exact .of_idle rfl hh.flushable
  | release => exact .of_idle rfl nofun
  | send m job =>
    have hstart := hm.accepted_inv hs hb
    have hseq := (State.busy_eq_false_iff s).1 hb
    have hfb : (s.withFb m).InitHistoryInv := .of_idle hseq hh.flushable
    exact resume_keeps_initHistory hstart (accepted_initHistory hstart hfb)

/-- Settles O52: only a completed INIT makes FLUSH permitted where it was not, and by then it has put the whole sequence on
record; `TRACE` only grows, and CONSTRUCT, RELEASE and reset, which change handle and address, leave FLUSH forbidden. -/
theorem flushIsOnlyPermittedAfterTheWholeInitSequence : Obligations.FlushIsOnlyPermittedAfterTheWholeInitSequence := by
  intro s t hs hh h
  refine (onNext_step (fun _ => ?_) (fun _ => resume_keeps_initHistory hs hh) (fun hb i inbox preload => ?_)
    hh).of_eq h
  · exact .of_idle rfl nofun
  · have hh' : (s.withInputs inbox preload).InitHistoryInv := ⟨hh.flushable, hh.inProgress⟩
    exact onNext_exec (s := s.withInputs inbox preload) hb i fun p hm =>
      plan_keeps_initHistory (hs.withInputs inbox preload) hh' hb hm

end Sys2Proof.Machine

/-! # What an instruction and a step leave unchanged, and what they append to `TRACE` -/

namespace Sys2Proof.Machine

/-! ## Entries of a run answered `Ok` -/

section
variable {h : Handle} {addr : BitVec 7} {cs : List Byte} {bs : List (List Byte)} {e : TraceEntry}

theorem reply_of_mem_sent (he : e ∈ okCommands h addr cs ++ okBlocks h addr bs) : e.reply = .ok := by
  simp only [okCommands, okBlocks, List.mem_append, List.mem_map] at he
  rcases he with ⟨b, -, rfl⟩ | ⟨b, -, rfl⟩ <;> rfl

theorem addressed_of_mem_sent (he : e ∈ okCommands h addr cs ++ okBlocks h addr bs) :
    e.addressed (some h) addr = true := by
  simp only [okCommands, okBlocks, List.mem_append, List.mem_map] at he
  rcases he with ⟨b, -, rfl⟩ | ⟨b, -, rfl⟩ <;> simp [TraceEntry.addressed]

theorem wellFormed_of_mem_sent (hbs : ∀ b ∈ bs, 1 ≤ b.length ∧ b.length ≤ 16)
    (he : e ∈ okCommands h addr cs ++ okBlocks h addr bs) : e.wellFormed = true := by
  simp only [okCommands, okBlocks, List.mem_append, List.mem_map] at he
  rcases he with ⟨b, -, rfl⟩ | ⟨b, hb, rfl⟩
  · rfl
  · simpa [TraceEntry.wellFormed] using hbs b hb

end

/-- Every block of an operation carries 1 to 16 bytes (R182). -/
theorem State.length_of_mem_jobBlocks {s : State} {ptr : Nat} {job : Job} {b : List Byte} (hb : b ∈ s.jobBlocks ptr job) :
    1 ≤ b.length ∧ b.length ≤ 16 := by
  rcases s.jobBlocks_cases ptr job with ⟨-, hblocks⟩ | hnone
  · exact State.length_of_mem_dataBlocks (hblocks ▸ hb)
  · simp [hnone] at hb

section
variable {s : State} {h : Handle} {p : Position} {cs : List Byte} {bs : List (List Byte)} {t : Transaction}

/-- The blocks sent so far and the one due carry 1 to 16 bytes. -/
theorem Due.blocks (hd : Sending s h p cs bs t) : (∀ b ∈ bs, 1 ≤ b.length ∧ b.length ≤ 16) ∧
    ∀ r, r = .ok ∨ r = .error → TraceEntry.wellFormed ⟨t, r⟩ = true := by
  cases hd with
  | command => exact ⟨nofun, fun r hr => by simpa [TraceEntry.wellFormed, State.commandTx] using hr⟩
  | @block _ after b split =>
    have hall : ∀ c ∈ bs ++ b :: after, 1 ≤ c.length ∧ c.length ≤ 16 := fun c hc =>
      State.length_of_mem_jobBlocks (split ▸ hc)
    refine ⟨fun c hc => hall c (List.mem_append_left _ hc), fun r hr => ?_⟩
    simpa [TraceEntry.wellFormed, State.dataTx, hr] using hall b (by simp)

/-- A write answered `Error` is recorded so (R33). -/
theorem Due.reply_error {cmds : List Byte} {blocks : List (List Byte)} (hd : Due s h cmds blocks cs bs t) {e : Answer} (he : e.error = true) : t.reply e = .error := by
  cases hd with
  | command => exact Transaction.reply_writeByte_error _ _ _ he _
  | block => exact Transaction.reply_writeBlock_error _ _ _ he _

/-- The write due carries the block's handle and address (R61). -/
theorem Due.addressed (hd : Sending s h p cs bs t) (r : Reply) : TraceEntry.addressed (some h) s.devAddr ⟨t, r⟩ = true := by
  cases hd <;> simp [TraceEntry.addressed, State.commandTx, State.dataTx]

end

/-! ## What a step appends to `TRACE` (R61) -/

/-- From `s` to `t`, `TRACE` gained one entry for each answer taken: `done`, all answered without error, and at most one
more, answered `Error`, which ended the operation. Each is of a shape the block issues, at its own handle and address. -/
def Appended (s t : State) : Prop :=
  ∃ done failed : List TraceEntry, t.trace = s.trace ++ (done ++ failed) ∧
    (∃ taken, s.answers = taken ++ t.answers ∧ taken.length = done.length + failed.length) ∧
    (∀ e ∈ done, e.reply ≠ .error) ∧
    (failed = [] ∨ ∃ e, failed = [e] ∧ t.busy = false ∧ (t.status = .errTransport ∨ t.status = .errResource)) ∧
    ∀ e ∈ done ++ failed, e.wellFormed = true ∧ e.addressed s.handle s.devAddr = true

/-- Nothing appended, no answer taken. -/
theorem Appended.none {s t : State} (htrace : t.trace = s.trace) (hanswers : t.answers = s.answers) : Appended s t :=
  ⟨[], [], by simp [htrace], ⟨[], by simp [hanswers], rfl⟩, nofun, .inl rfl, nofun⟩

/-- A run of writes all answered `Ok`. -/
theorem Appended.sent {s t : State} {h : Handle} (hh : s.handle = some h) {cs : List Byte} {bs : List (List Byte)}
    {as rest : List Answer} (hbs : ∀ b ∈ bs, 1 ≤ b.length ∧ b.length ≤ 16)
    (htrace : t.trace = s.trace ++ (okCommands h s.devAddr cs ++ okBlocks h s.devAddr bs)) (ha : s.answers = as ++ rest)
    (hrest : t.answers = rest) (hl : as.length = cs.length + bs.length) : Appended s t := by
  refine ⟨_, [], by rw [List.append_nil]; exact htrace, ⟨as, by rw [ha, hrest], by simp [hl, okCommands, okBlocks]⟩, ?_,
    .inl rfl, ?_⟩
  · intro e he
    simp [reply_of_mem_sent he]
  · intro e he
    rw [List.append_nil] at he
    exact ⟨wellFormed_of_mem_sent hbs he, hh ▸ addressed_of_mem_sent he⟩

/-- Going on with the operation in progress. -/
theorem resume_appends (s : State) : OnNext (Appended s) (resume s) := by
  cases hp : s.seq with
  | none => simpa [resume_idle hp] using Appended.none (s := s) rfl rfl
  | some p =>
    cases hj : p.job.writes with
    | true =>
      refine onNext_resume_writes hp hj (fun h as rest hh ha _ hl => ?_) (fun h cs bs t as e rest hh hd ha _ hl he => ?_)
        (fun h cs bs t hh hd _ hl => ?_)
      · exact .sent hh (fun b => State.length_of_mem_jobBlocks) (State.sent_trace s h _ _ rest) ha rfl hl
      · have hreply := hd.reply_error he
        obtain ⟨hbs, hwf⟩ := hd.blocks
        refine ⟨okCommands h s.devAddr cs ++ okBlocks h s.devAddr bs, [⟨t, t.reply e⟩], ?_,
          ⟨as ++ [e], by simp [ha]; rfl, by simp [hl, okCommands, okBlocks]⟩, fun e he => by simp [reply_of_mem_sent he],
          .inr ⟨_, rfl, rfl, .inl rfl⟩, fun e' he' => ?_⟩
        · simp [State.jobFailed]
        · rw [hh]
          rcases List.mem_append.1 he' with he' | he'
          · exact ⟨wellFormed_of_mem_sent hbs he', addressed_of_mem_sent he'⟩
          · obtain rfl := List.mem_singleton.1 he'
            exact ⟨hwf _ (.inr hreply), hd.addressed _⟩
      · exact .sent hh hd.blocks.1 (State.sent_trace s h cs bs []) (List.append_nil _).symm rfl hl
    | false =>
      obtain ⟨job, idx, ptr⟩ := p
      cases job with
      | construct b a h w =>
        rw [resume_construct hp]
        refine onNext_openBus (fun _ => .none rfl rfl) (fun e rest ha he => ?_) (fun e rest ha he => ?_)
        · have hreply : (Transaction.openBus b).reply e = .error := Transaction.reply_openBus_error he
          refine ⟨[], [⟨.openBus b, .error⟩], by simp [hreply], ⟨[e], ha, rfl⟩, nofun, .inr ⟨_, rfl, rfl, .inr rfl⟩, ?_⟩
          simp [TraceEntry.wellFormed, TraceEntry.addressed]
        · have hreply : (Transaction.openBus b).reply e = .opened e.handle := Transaction.reply_openBus_opened he
          refine ⟨[⟨.openBus b, .opened e.handle⟩], [], by simp [hreply], ⟨[e], ha, rfl⟩, by simp, .inl rfl, ?_⟩
          simp [TraceEntry.wellFormed, TraceEntry.addressed]
      | _ => cases hj

/-- An instruction on an idle block. -/
theorem exec_appends {s : State} (hb : s.busy = false) (i : Instr) : OnNext (Appended s) (exec i s) := by
  refine onNext_exec hb i fun p _ => ?_
  cases p with
  | refuse | fault => trivial
  | reject | answer | release => exact .none rfl rfl
  | send m job => exact resume_appends ((s.withFb m).accepted job)

/-- Every step but a served reset. -/
theorem step_appends {s t : State} (h : step s = .next t) : s.resetLine = true ∧ t = s.hardReset ∨ Appended s t :=
  (onNext_step (P := fun t => s.resetLine = true ∧ t = s.hardReset ∨ Appended s t) (fun hr => .inl ⟨hr, rfl⟩)
    (fun _ => (resume_appends s).mono fun _ => .inr)
    (fun hb i inbox preload => (exec_appends (s := s.withInputs inbox preload) hb i).mono fun _ => .inr)
    (.inr (.none rfl rfl))).of_eq h

/-- Settles O49: the entries a step appends are those of its operation, the one answered `Error` last. -/
theorem transactionsAreIssuedInOrder : Obligations.TransactionsAreIssuedInOrder := by
  intro s t hr h
  rcases step_appends h with ⟨hr', -⟩ | ⟨done, failed, htrace, ⟨taken, hanswers, hlen⟩, hdone, hfailed, hshape⟩
  · simp [hr] at hr'
  refine ⟨done ++ failed, taken, htrace, hanswers, by rw [hlen, List.length_append], ?_, ?_, ?_, fun e he => (hshape e he).2⟩
  · rcases hfailed with rfl | ⟨e, rfl, -, -⟩
    · exact fun e he => hdone e (by simpa using List.mem_of_mem_dropLast he)
    · rwa [List.dropLast_concat]
  · intro hbusy
    rcases hfailed with rfl | ⟨e, rfl, hidle, -⟩
    · simpa using hdone
    · simp [hidle] at hbusy
  · rintro ⟨e, he, herror⟩
    rcases hfailed with rfl | ⟨e', rfl, hidle, hstatus⟩
    · exact absurd herror (hdone e (by simpa using he))
    · exact ⟨hidle, hstatus⟩

/-- Settles O50: a served reset empties `TRACE`; every other step appends well-formed entries only. -/
theorem stepKeepsTransactionsWellFormed : Obligations.StepKeepsTransactionsWellFormed := by
  intro s t hs h e he
  rcases step_appends h with ⟨-, rfl⟩ | ⟨done, failed, htrace, -, -, -, hshape⟩
  · cases he
  · rw [htrace] at he
    exact (List.mem_append.1 he).elim (hs e) fun hnew => (hshape e hnew).1

end Sys2Proof.Machine

/-! # What an operation leaves unchanged (10_state.md R20, R28; 60_exceptions.md R210, R211) -/

namespace Sys2Proof.Machine

/-! ## The block's parameters and inputs -/

/-- Nothing of the block's parameters and of what waits on its inputs, the transport's answers apart, differs. -/
def SameInputs (s t : State) : Prop :=
  t.cfg = s.cfg ∧ t.inbox = s.inbox ∧ t.resetLine = s.resetLine ∧ t.preload = s.preload

theorem resume_sameInputs (s : State) : OnNext (SameInputs s) (resume s) := by
  cases hp : s.seq with
  | none => simp [resume_idle hp, SameInputs]
  | some p =>
    cases hj : p.job.writes with
    | true =>
      exact onNext_resume_writes hp hj (fun _ _ _ _ _ _ _ => ⟨rfl, rfl, rfl, rfl⟩)
        (fun _ _ _ _ _ _ _ _ _ _ _ _ _ => ⟨rfl, rfl, rfl, rfl⟩) (fun _ _ _ _ _ _ _ _ => ⟨rfl, rfl, rfl, rfl⟩)
    | false =>
      obtain ⟨job, idx, ptr⟩ := p
      cases job with
      | construct b a h w =>
        rw [resume_construct hp]
        exact onNext_openBus (fun _ => ⟨rfl, rfl, rfl, rfl⟩) (fun _ _ _ _ => ⟨rfl, rfl, rfl, rfl⟩)
          (fun _ _ _ _ => ⟨rfl, rfl, rfl, rfl⟩)
      | _ => cases hj

theorem exec_sameInputs {s : State} (hb : s.busy = false) (i : Instr) : OnNext (SameInputs s) (exec i s) := by
  refine onNext_exec hb i fun p _ => ?_
  cases p with
  | refuse | fault => trivial
  | reject | answer | release => exact ⟨rfl, rfl, rfl, rfl⟩
  | send m job => exact resume_sameInputs ((s.withFb m).accepted job)

/-! ## A busy block -/

/-- A busy block leaves every request and every sent command unanswered (R30). -/
theorem exec_busy {s : State} (hb : s.busy = true) {i : Instr} (hi : isRequest i = true ∨ isSentCommand i = true) :
    exec i s = .next s := by
  rcases hi with hi | hi
  · cases i with
    | construct | init | flush | clear | clearFlush | setStartLine | writeRaw | actScroll | deactScroll | scrollCfg
    | getPages | drawPixel | clearBlock | release | reserved14 | reserved15 => exact if_pos hb
    | _ => cases hi
  · rw [exec_sentCommand hi]
    exact if_pos hb

/-- Settles O43: the guard of every meaning is `BUSY`, and going on with the operation takes no code. -/
theorem busyBlockAcceptsNothing : Obligations.BusyBlockAcceptsNothing := by
  intro s hb
  refine ⟨fun i hi => exec_busy hb hi, fun t h => ?_⟩
  cases hr : s.resetLine with
  | true => simp [step_reset_busy hr hb] at h
  | false =>
    rw [step_busy hr hb] at h
    obtain ⟨-, hinbox, -, hpreload⟩ := (resume_sameInputs s).of_eq h
    exact ⟨hinbox, hpreload⟩

/-- An operation that writes changes nothing it reads, and while it waits it changes the position only (R31, R62). -/
theorem resume_writes_frame {s : State} {p : Position} (hp : s.seq = some p) (hj : p.job.writes = true) :
    OnNext (fun t => t.fb = s.fb ∧ t.handle = s.handle ∧ t.devAddr = s.devAddr ∧ t.width = s.width ∧
      t.height = s.height ∧ t.pages = s.pages ∧
      (t.busy = true → t.lstate = s.lstate ∧ t.seqOp = s.seqOp ∧ t.status = s.status ∧ t.rval = s.rval)) (resume s) := by
  refine onNext_resume_writes hp hj (fun _ _ _ _ _ _ _ => ⟨rfl, rfl, rfl, rfl, rfl, rfl, nofun⟩)
    (fun _ _ _ _ _ _ _ _ _ _ _ _ _ => ⟨rfl, rfl, rfl, rfl, rfl, rfl, nofun⟩) (fun h cs bs _ _ _ _ _ => ?_)
  refine ⟨rfl, rfl, rfl, rfl, rfl, rfl, fun _ => ⟨rfl, ?_, rfl, rfl⟩⟩
  simp [State.seqOp, hp]

/-- Settles O48: a step of an operation that writes is going on with it. -/
theorem nothingChangesUnderAnOperationInProgress : Obligations.NothingChangesUnderAnOperationInProgress := by
  intro s t p hp hj h
  have hb : s.busy = true := by simp [State.busy, hp]
  cases hr : s.resetLine with
  | true => simp [step_reset_busy hr hb] at h
  | false =>
    rw [step_busy hr hb] at h
    exact (resume_writes_frame hp (Job.writes_iff.2 hj)).of_eq h

/-- `LSTATE` after a step of an operation that writes: as before, or as its end leaves it (R165, R169, R180, R188). -/
theorem resume_writes_lstate {s : State} {p : Position} (hp : s.seq = some p) (hj : p.job.writes = true) :
    OnNext (fun t => t.lstate = s.lstate ∨ t.lstate = p.job.lstateDone s.lstate ∨ t.lstate = p.job.lstateFailed s.lstate)
      (resume s) :=
  onNext_resume_writes hp hj (fun _ _ _ _ _ _ _ => .inr (.inl rfl)) (fun _ _ _ _ _ _ _ _ _ _ _ _ _ => .inr (.inr rfl))
    (fun _ _ _ _ _ _ _ _ => .inl rfl)

/-! ## How an operation that is started ends -/

/-- The status of an operation that failed (R144, R152). -/
def Job.failure (job : Job) : Status := if job.writes then .errTransport else .errResource

/-- An operation ends with `OK` or fails; if it fails, nothing differs from the state in which it was accepted but `LSTATE`
after an INIT, the response, and in `TRACE` a run of transactions of which exactly the last was answered `Error`. -/
theorem start_ends (job : Job) (s : State) : OnNext (fun t => t.busy = false → t.rval = 0#32 ∧
    (t.status = .ok ∨ ∃ done last, last.reply = .error ∧ (∀ e ∈ done, e.reply = .ok) ∧
      t = (s.setLState (job.lstateFailed s.lstate)).completed job.failure 0#32 (done ++ [last]) t.answers))
    (start job s) := by
  cases hj : job.writes with
  | true =>
    refine onNext_resume_writes (s := s.accepted job) (p := ⟨job, 0#5, 0#17⟩) rfl hj (fun _ _ _ _ _ _ _ _ => ⟨rfl, .inl rfl⟩)
      (fun h cs bs t as e rest _ hd _ _ _ he _ => ⟨rfl, .inr ?_⟩) (fun h cs bs t _ _ _ _ hidle => ?_)
    · refine ⟨okCommands h s.devAddr cs ++ okBlocks h s.devAddr bs, ⟨t, t.reply e⟩, hd.reply_error he,
        fun e he => reply_of_mem_sent he, ?_⟩
      simp [Job.failure, hj, State.jobFailed, State.completed, State.sent, State.logged, State.respond, State.setLState,
        State.ranBlocks, State.ranCommands, State.accepted]
    · simp at hidle
  | false =>
    cases job with
    | construct b a h w =>
      refine onNext_openBus (fun _ => nofun) (fun e rest ha he _ => ⟨rfl, .inr ?_⟩) (fun e rest ha he _ => ⟨rfl, .inl rfl⟩)
      refine ⟨[], ⟨.openBus b, .error⟩, rfl, nofun, ?_⟩
      rw [Job.failure, hj, ← Transaction.reply_openBus_error he]
      rfl
    | _ => cases hj

theorem Job.failure_ne_errPrecond (job : Job) : job.failure ≠ .errPrecond := by
  unfold Job.failure
  split <;> nofun

section
variable {s : State} {i : Instr} {m : Memory} {job : Job}

/-- The framebuffer of an instruction that is refused or started is the old one, but for a CLEAR_FLUSH on a constructed
block (R184). -/
theorem Meaning.memory (hm : Meaning s i (.reject m) ∨ Meaning s i (.send m job)) :
    m = if i = .clearFlush ∧ s.lstate ≠ .uninitialized then [] else s.fb := by
  have hconstructed : s.flushable = true → s.lstate ≠ .uninitialized := fun hf =>
    (State.constructed_iff s).1 (State.constructed_of_flushable s hf)
  rcases hm with hm | hm
  · cases hm with
    | uninitialized hl => simp [hl]
    | clearFlushRefused hl => simp [hl]
    | _ => simp
  · cases hm with
    | clearFlush hf => simp [hconstructed hf]
    | wire hl hi =>
      refine (if_neg ?_).symm
      rintro ⟨rfl, -⟩
      cases hi
    | _ => simp

/-- Only INIT starts the INIT operation. -/
theorem Meaning.eq_init (hm : Meaning s i (.send m .init)) : i = .init := by
  cases hm
  rfl

end

/-- Settles O44: a refused instruction changes the response only, CLEAR_FLUSH the framebuffer too; one that failed is
described by how its operation ends. -/
theorem errorsLeaveTheBlockAsItWas : Obligations.ErrorsLeaveTheBlockAsItWas := by
  intro i s t hb h hidle herror
  obtain ⟨p, hm⟩ := exists_meaning s i
  rw [exec_of_meaning hb hm] at h
  cases p with
  | refuse | fault => cases h
  | release | answer => cases h; exact absurd rfl herror
  | reject m =>
    cases h
    exact ⟨rfl, rfl, rfl, rfl, rfl, rfl, rfl, rfl, rfl, rfl, Meaning.memory (job := .init) (.inl hm), .inl rfl,
      .inl ⟨rfl, rfl⟩⟩
  | send m job =>
    obtain ⟨-, hok | ⟨done, last, hlast, hdone, ht⟩⟩ := (start_ends job (s.withFb m)).of_eq h hidle
    · exact absurd hok herror
    rw [ht]
    refine ⟨rfl, rfl, rfl, rfl, rfl, rfl, rfl, rfl, rfl, rfl, Meaning.memory (.inr hm), ?_,
      .inr ⟨job.failure_ne_errPrecond, done, last, (List.append_assoc _ _ _).symm, hlast, hdone⟩⟩
    rcases job.lstateFailed_cases s.lstate with hl | ⟨rfl, hl⟩
    · exact .inl hl
    · exact .inr ⟨hm.eq_init, rfl, hl⟩

/-- Settles O45: refused instructions end with `ERR_PRECOND`, those that answer at once with `OK`, and of those that start
an operation only CONSTRUCT opens the bus. -/
theorem statusesByOperation : Obligations.StatusesByOperation := by
  intro i s t hb h hidle
  obtain ⟨p, hm⟩ := exists_meaning s i
  rw [exec_of_meaning hb hm] at h
  cases p with
  | refuse | fault => cases h
  | release =>
    cases h
    exact ⟨nofun, nofun, fun _ => rfl, fun hv => absurd rfl hv⟩
  | answer m v =>
    cases h
    refine ⟨nofun, nofun, fun _ => rfl, fun hv => ⟨?_, rfl⟩⟩
    cases hm with
    | getPages => rfl
    | _ => exact absurd rfl hv
  | reject m =>
    cases h
    refine ⟨nofun, nofun, fun hi => ?_, fun hv => absurd rfl hv⟩
    cases hm with
    | uninitialized _ _ hrel => exact absurd hi hrel
    | _ => cases hi
  | send m job =>
    obtain ⟨hrval, hstatus⟩ := (start_ends job (s.withFb m)).of_eq h hidle
    have hfailure : t.status = .ok ∨ t.status = job.failure := hstatus.imp_right fun ⟨_, _, _, _, ht⟩ => by rw [ht]; rfl
    refine ⟨fun hst => ?_, fun hst => ?_, fun hi => ?_, fun hv => absurd hrval hv⟩
    · rw [hst] at hfailure
      cases hm with
      | construct => exact ⟨_, _, _, _, rfl⟩
      | _ => simp [Job.failure, Job.writes] at hfailure
    · rw [hst] at hfailure
      cases hm with
      | construct => simp [Job.failure, Job.writes] at hfailure
      | wire _ hi => simp [hi]
      | _ => simp
    · cases hm with
      | wire _ hi' =>
        subst hi
        cases hi'
      | _ => cases hi

/-! ## Who writes what (R20) -/

section
variable {s t : State} {i : Instr}

/-- Every instruction that starts an operation but CONSTRUCT writes. -/
theorem Meaning.writes {m : Memory} {job : Job} (hm : Meaning s i (.send m job)) (hc : ∀ b a h w, i ≠ .construct b a h w) :
    job.writes = true := by
  cases hm with
  | construct => exact absurd rfl (hc _ _ _ _)
  | _ => rfl

/-- The framebuffer after an instruction that is none of its writers (R58). -/
theorem exec_fb (hb : s.busy = false) (hcon : ∀ b a h w, i ≠ .construct b a h w) (hrel : i ≠ .release) (hclear : i ≠ .clear)
    (hcf : i ≠ .clearFlush) (hdraw : ∀ x y on, i ≠ .drawPixel x y on) (hblock : ∀ x y dx dy, i ≠ .clearBlock x y dx dy)
    (hraw : ∀ v o, i ≠ .writeRaw v o) (h : exec i s = .next t) : t.fb = s.fb := by
  obtain ⟨p, hm⟩ := exists_meaning s i
  rw [exec_of_meaning hb hm] at h
  cases p with
  | refuse | fault => cases h
  | release => cases hm; exact absurd rfl hrel
  | reject m =>
    cases h
    exact (Meaning.memory (job := .init) (.inl hm)).trans (if_neg fun hc => hcf hc.1)
  | answer m v =>
    cases h
    cases hm with
    | getPages | scrollCfg => rfl
    | clear => exact absurd rfl hclear
    | drawPixel => exact absurd rfl (hdraw _ _ _)
    | clearBlock => exact absurd rfl (hblock _ _ _ _)
    | writeRaw => exact absurd rfl (hraw _ _)
  | send m job =>
    have hframe := resume_writes_frame (s := (s.withFb m).accepted job) rfl (hm.writes hcon)
    exact (hframe.of_eq h).1.trans ((Meaning.memory (.inr hm)).trans (if_neg fun hc => hcf hc.1))

/-- `LSTATE` after an instruction that is none of its writers (R28). -/
theorem exec_lstate (hb : s.busy = false) (hcon : ∀ b a h w, i ≠ .construct b a h w) (hrel : i ≠ .release) (hinit : i ≠ .init)
    (hflush : i ≠ .flush) (hcf : i ≠ .clearFlush) (h : exec i s = .next t) : t.lstate = s.lstate := by
  obtain ⟨p, hm⟩ := exists_meaning s i
  rw [exec_of_meaning hb hm] at h
  cases p with
  | refuse | fault => cases h
  | release => cases hm; exact absurd rfl hrel
  | reject | answer => cases h; rfl
  | send m job =>
    have hl := (resume_writes_lstate (s := (s.withFb m).accepted job) rfl (hm.writes hcon)).of_eq h
    cases hm with
    | construct => exact absurd rfl (hcon _ _ _ _)
    | init => exact absurd rfl hinit
    | flush => exact absurd rfl hflush
    | clearFlush => exact absurd rfl hcf
    | setStartLine | actScroll | deactScroll | wire => simpa [Job.lstateDone, Job.lstateFailed] using hl

/-- An instruction that starts no operation sends nothing and completes at once (R240). -/
theorem exec_immediate (hb : s.busy = false) (hi : ∀ m job, ¬ Meaning s i (.send m job)) (h : exec i s = .next t) :
    t.trace = s.trace ∧ t.answers = s.answers ∧ t.busy = false := by
  obtain ⟨p, hm⟩ := exists_meaning s i
  rw [exec_of_meaning hb hm] at h
  cases p with
  | refuse | fault => cases h
  | reject | answer | release => cases h; exact ⟨rfl, rfl, rfl⟩
  | send m job => exact absurd hm (hi m job)

end

/-- Settles O46: the parameters and inputs are kept by every instruction, each other item by those that do not write it, and
the instructions listed last start no operation. -/
theorem onlyTheNamedOperationsWriteEachItem : Obligations.OnlyTheNamedOperationsWriteEachItem := by
  intro i s t hb h
  obtain ⟨hcfg, hinbox, hreset, hpreload⟩ := (exec_sameInputs hb i).of_eq h
  refine ⟨hcfg, hinbox, hreset, hpreload, fun hcon hrel => ?_, fun hi => exec_immediate hb (fun m job hm => ?_) h⟩
  · obtain ⟨hhandle, haddr, hwidth, hheight, hpages⟩ := State.construction_eq_iff.1 ((exec_construction hcon hrel s).of_eq h)
    refine ⟨hhandle, haddr, hwidth, hheight, hpages, ?_, ?_⟩
    · exact fun hclear hcf hdraw hblock hraw => exec_fb hb hcon hrel hclear hcf hdraw hblock hraw h
    · exact fun hinit hflush hcf => exec_lstate hb hcon hrel hinit hflush hcf h
  · cases hm with
    | wire _ hs =>
      simp only [List.mem_cons, List.not_mem_nil, or_false] at hi
      rcases hi with (rfl | rfl | rfl | rfl | rfl) | ⟨_, _, _, rfl⟩ | ⟨_, _, _, _, rfl⟩ | ⟨_, _, rfl⟩ | ⟨_, _, rfl⟩ <;>
        cases hs
    | _ => simp at hi

/-! ## The lifecycle (R28) -/

/-- The arcs of `LSTATE`: out of `Uninitialized` only to `BusAcquired`, into `Displaying` only from where FLUSH is
permitted. -/
def LifecycleArc (s t : State) : Prop :=
  (s.lstate = .uninitialized → t.lstate = .uninitialized ∨ t.lstate = .busAcquired) ∧
    (t.lstate = .displaying → s.flushable = true)

/-- A step that leaves `LSTATE` alone. -/
theorem LifecycleArc.of_eq {s t : State} (h : t.lstate = s.lstate) : LifecycleArc s t :=
  ⟨fun hl => .inl (h.trans hl), fun hl => by simp [State.flushable, h.symm.trans hl]⟩

/-- An operation that ends in `Displaying` is permitted only where FLUSH is (R180, R184). -/
theorem State.permits.flushable {s : State} {job : Job} (hp : s.permits job)
    (hd : job.lstateDone s.lstate = .displaying ∨ job.lstateFailed s.lstate = .displaying) : s.flushable = true := by
  have hsame : s.lstate = .displaying → s.flushable = true := fun hl => by simp [State.flushable, hl]
  cases job with
  | construct => cases hp
  | init => simp [Job.lstateDone, Job.lstateFailed] at hd
  | flush => exact hp
  | clearFlush => exact hp.1
  | command | wire => exact hsame (hd.elim id id)

/-- Going on with an operation takes an arc: only a permitted flush leads into `Displaying`. -/
theorem resume_lifecycleArc {s : State} (hs : s.Inv) : OnNext (LifecycleArc s) (resume s) := by
  cases hp : s.seq with
  | none => simpa [resume_idle hp] using LifecycleArc.of_eq (s := s) rfl
  | some p =>
    cases hj : p.job.writes with
    | true =>
      refine (resume_writes_lstate hp hj).mono fun t hl => ?_
      have hpermits := (hs.position hp hj).1
      refine ⟨fun hu => absurd hu hpermits.constructed, fun hd => ?_⟩
      rcases hl with hl | hl | hl
      · exact (LifecycleArc.of_eq hl).2 hd
      · exact hpermits.flushable (.inl (hl ▸ hd))
      · exact hpermits.flushable (.inr (hl ▸ hd))
    | false =>
      obtain ⟨job, idx, ptr⟩ := p
      cases job with
      | construct b a h w =>
        rw [resume_construct hp]
        exact onNext_openBus (fun _ => .of_eq rfl) (fun _ _ _ _ => .of_eq rfl) (fun _ _ _ _ => ⟨fun _ => .inr rfl, nofun⟩)
      | _ => cases hj

/-- Settles O47: only CONSTRUCT leaves `Uninitialized`, and a flush, which alone leads into `Displaying`, is permitted in
`DeviceInitialized` and `Displaying` only. -/
theorem lifecycleTransitions : Obligations.LifecycleTransitions := by
  intro s t hs h
  have harc : LifecycleArc s t := by
    refine (onNext_step (fun _ => ⟨fun _ => .inl rfl, nofun⟩) (fun _ => resume_lifecycleArc hs)
      (fun hb i inbox preload => ?_) (.of_eq rfl)).of_eq h
    refine onNext_exec (s := s.withInputs inbox preload) hb i fun p hm => ?_
    cases p with
    | refuse | fault => trivial
    | reject | answer => exact LifecycleArc.of_eq rfl
    | release => exact ⟨fun _ => .inl rfl, nofun⟩
    | send m job => exact resume_lifecycleArc (hm.accepted_inv (hs.withInputs inbox preload) hb)
  obtain ⟨hout, hin⟩ := harc
  refine ⟨hout, fun hl hd => ?_, fun hd => of_decide_eq_true (hin hd)⟩
  have hf := hin hd
  simp [State.flushable, hl] at hf

end Sys2Proof.Machine

/-! # Waiting, completing, going on (10_state.md R31; 41_transfer_primitives.md R143; 70_reset_and_hazards.md R238) -/

namespace Sys2Proof.Machine

/-! ## The transaction a block presents (R143) -/

section
variable {s : State} {h : Handle} {p : Position}

/-- A write is due at a legal position: the next command byte, or the next block of the framebuffer; and it is the
transaction presented. -/
theorem pendingTx_of_standsAt (hh : s.handle = some h) (hp : s.seq = some p) (hj : p.job.writes = true)
    (hs : s.standsAt p) :
    (∃ b after, (s.jobCommands p.job).drop p.idx.toNat = b :: after ∧ s.pendingTx = some (s.commandTx h b)) ∨
    (∃ after, (s.jobCommands p.job).drop p.idx.toNat = [] ∧ p.ptr.toNat < s.size ∧
      s.jobBlocks p.ptr.toNat p.job = s.memRead p.ptr.toNat (min 16 (s.size - p.ptr.toNat)) :: after ∧
      s.pendingTx = some (s.dataTx h (s.memRead p.ptr.toNat (min 16 (s.size - p.ptr.toNat))))) := by
  rw [pendingTx_writes hp hj]
  rcases hs with ⟨hlt, -⟩ | ⟨heq, hflush, hlt, -⟩
  · rw [List.drop_eq_getElem_cons hlt]
    exact .inl ⟨_, _, rfl, by simp only [State.nextTx, hh]⟩
  · have hblocks : s.jobBlocks p.ptr.toNat p.job = s.dataBlocks p.ptr.toNat := by
      rcases hflush with hf | hf <;> rw [hf] <;> rfl
    rw [hblocks, State.dataBlocks_step s hlt, heq, List.drop_length]
    exact .inr ⟨_, rfl, hlt, rfl, by simp only [State.nextTx, hh]⟩

/-- The transaction presented is the first write due. -/
theorem exists_sending (hh : s.handle = some h) (hp : s.seq = some p) (hj : p.job.writes = true) (hs : s.standsAt p) :
    ∃ t, s.pendingTx = some t ∧ Sending s h p [] [] t := by
  rcases pendingTx_of_standsAt hh hp hj hs with ⟨b, after, hcmds, ht⟩ | ⟨after, hcmds, -, hblocks, ht⟩
  · exact ⟨_, ht, .command (cs := []) hcmds⟩
  · refine ⟨_, ht, ?_⟩
    rw [Sending, hcmds]
    exact .block (bs := []) hblocks

end

/-- The operation in progress of a block under the invariant that writes, with the block's handle. -/
theorem State.Inv.handle_of_writes {s : State} (hs : s.Inv) {p : Position} (hp : s.seq = some p) (hj : p.job.writes = true) :
    ∃ h, s.handle = some h :=
  Option.isSome_iff_exists.1 (hs.handle.2 (hs.position hp hj).1.constructed)

/-! ## Silence -/

section
variable {s : State} {h : Handle} {cmds : List Byte} {blocks : List (List Byte)} {onOk onError : State → State}

/-- Every write before the one due is answered `Ok`, that one not at all: the operation waits (R143). -/
theorem sendAll_waits {cs : List Byte} {bs : List (List Byte)} {t : Transaction} (hd : Due s h cmds blocks cs bs t)
    (hh : s.handle = some h) (hok : allOk s.answers) (hl : s.answers.length = cs.length + bs.length) :
    sendAll cmds blocks onOk onError s = .next (s.sent h cs bs []) := by
  have ha : s.answers = s.answers ++ [] := (List.append_nil _).symm
  cases hd with
  | command split =>
    rw [split, sendAll_sent_commands hh ha hok hl]
    simp [sendAll, hh, sendCommands, sendCommand_waiting (s := s.sent h cs [] []) rfl]
  | block split =>
    rw [split, sendAll_sent_blocks hh ha hok hl]
    simp [sendAll, hh, sendCommands, sendBlocks, sendData_waiting (s := s.sent h cmds bs []) rfl]

/-- With no answer at all the block stands exactly where it is (R238). -/
theorem sendAll_silent {t : Transaction} (hd : Due s h cmds blocks [] [] t) (hh : s.handle = some h)
    (ha : s.answers = []) : sendAll cmds blocks onOk onError s = .next s := by
  rw [sendAll_waits hd hh (ha ▸ allOk_nil) (by rw [ha]; rfl), ← ha, State.sent_nothing]

end

/-- An operation that writes always leads to a next state, and `TRACE` only grows. -/
theorem sendAll_extends {s : State} {h : Handle} (hh : s.handle = some h) (cmds : List Byte) (blocks : List (List Byte))
    (job : Job) : ∃ t more, sendAll cmds blocks (State.jobDone job) (State.jobFailed job) s = .next t ∧
      t.trace = s.trace ++ more := by
  rcases sendAll_outcomes hh cmds blocks (State.jobDone job) (State.jobFailed job) with
    ⟨_, _, _, _, _, hr⟩ | ⟨cs, bs, t, _, e, _, _, _, _, _, _, hr⟩ | ⟨_, _, _, _, _, _, hr⟩
  · exact ⟨_, _, hr, State.sent_trace ..⟩
  · refine ⟨_, okCommands h s.devAddr cs ++ okBlocks h s.devAddr bs ++ [⟨t, t.reply e⟩], hr, ?_⟩
    simp [State.jobFailed]
  · exact ⟨_, _, hr, State.sent_trace ..⟩

section
variable {s : State} {h : Handle} {cmds : List Byte} {blocks : List (List Byte)} {t : Transaction} {a : Answer}
  {rest : List Answer}

/-- The first write due is answered `Ok`: it is logged, and the operation goes on (R61). -/
theorem sendAll_first_ok {onOk onError : State → State} (hd : Due s h cmds blocks [] [] t) (hh : s.handle = some h)
    (ha : s.answers = a :: rest) (he : a.error = false) :
    ∃ cmds' blocks' cs bs, okCommands h s.devAddr cs ++ okBlocks h s.devAddr bs = [⟨t, t.reply a⟩] ∧
      sendAll cmds blocks onOk onError s = sendAll cmds' blocks' onOk onError (s.sent h cs bs rest) := by
  have hok : allOk [a] := allOk_cons.2 ⟨he, allOk_nil⟩
  generalize hcs : ([] : List Byte) = cs at hd
  cases hd with
  | @command _ after b split =>
    subst hcs split
    refine ⟨after, blocks, [b], [], ?_, sendAll_sent_commands (as := [a]) (cs := [b]) hh ha hok rfl after blocks⟩
    rw [State.commandTx, Transaction.reply_writeByte_ok _ _ _ he]
    rfl
  | @block _ after b split =>
    subst hcs split
    refine ⟨[], after, [], [b], ?_, sendAll_sent_blocks (as := [a]) (bs := [b]) hh ha hok rfl after⟩
    rw [State.dataTx, Transaction.reply_writeBlock_ok _ _ _ he]
    rfl

/-- The first answer to come is that of the first write due, and the pair is what `TRACE` gains first (R143). -/
theorem sendAll_first (hd : Due s h cmds blocks [] [] t) (hh : s.handle = some h) (ha : s.answers = a :: rest) (job : Job) :
    ∃ s' more, sendAll cmds blocks (State.jobDone job) (State.jobFailed job) s = .next s' ∧
      s'.trace = s.trace ++ ⟨t, t.reply a⟩ :: more := by
  cases he : a.error with
  | true =>
    refine ⟨_, [], sendAll_failed (as := []) hd hh ha allOk_nil rfl he, ?_⟩
    simp [State.jobFailed]
  | false =>
    obtain ⟨cmds', blocks', cs, bs, hentry, hgo⟩ := sendAll_first_ok hd hh ha he
    obtain ⟨s', more, hnext, htrace⟩ := sendAll_extends (s := s.sent h cs bs rest) hh cmds' blocks' job
    exact ⟨s', more, hgo.trans hnext, by simp [htrace, hentry]⟩

end

/-- Settles O29: a block under the invariant stands where a transaction is due. -/
theorem busyBlockWaitsOnItsPendingTransaction : Obligations.BusyBlockWaitsOnItsPendingTransaction := by
  intro s hs hb hr
  obtain ⟨p, hp⟩ := Option.isSome_iff_exists.1 hb
  rw [step_busy hr hb]
  cases hj : p.job.writes with
  | true =>
    obtain ⟨h, hh⟩ := hs.handle_of_writes hp hj
    obtain ⟨t, ht, hd⟩ := exists_sending hh hp hj (hs.position hp hj).2
    rw [resume_writes hp hj]
    exact ⟨t, ht, sendAll_silent hd hh, fun a rest ha => sendAll_first hd hh ha p.job⟩
  | false =>
    obtain ⟨job, idx, ptr⟩ := p
    cases job with
    | construct b addr h w =>
      rw [resume_construct hp]
      refine ⟨.openBus b, by simp [State.pendingTx, hp], fun ha => ?_, fun a rest ha => ?_⟩
      · exact openBus_waits ha
      · cases he : a.error with
        | true => exact ⟨_, [], openBus_failed ha he, rfl⟩
        | false => exact ⟨_, [], openBus_opened ha he, rfl⟩
    | _ => cases hj

/-! ## The transaction on the ports (R88, R89, R91) -/

/-- Byte `i` of a packed payload stands in bits `[8i+7 : 8i]` (R91). -/
theorem packBytes_extract {bs : List Byte} : ∀ {i : Nat} {b : Byte}, i < 16 → bs[i]? = some b →
    (packBytes bs).extractLsb' (8 * i) 8 = b := by
  induction bs with
  | nil => nofun
  | cons c bs ih =>
    intro i b hi hb
    cases i with
    | zero =>
      obtain rfl : c = b := by simpa using hb
      ext k hk
      have h128 : k < 128 := by omega
      simp [packBytes, hk, h128]
    | succ i =>
      have hrest := ih (i := i) (by omega) (List.getElem?_cons_succ ▸ hb)
      rw [← hrest]
      ext k hk
      have hin : 8 * (i + 1) + k < 128 := by omega
      have hout : ¬ 8 * (i + 1) + k < 8 := by omega
      have hshift : 8 * (i + 1) + k - 8 = 8 * i + k := by omega
      have hlt : 8 * i + k < 128 := by omega
      have hfirst : c.getLsbD (8 * (i + 1) + k) = false := BitVec.getLsbD_of_ge _ _ (by omega)
      simp [packBytes, hin, hout, hshift, hlt, hfirst]

/-- `MemRead` byte by byte (R13). -/
theorem State.memRead_getElem? (s : State) {i n k : Nat} (hk : k < n) : (s.memRead i n)[k]? = some (s.fbRead (i + k)) := by
  simp [State.memRead, hk]

/-- Settles O56: CONSTRUCT presents its OPEN; any other operation under the invariant its next command byte or the next
block. -/
theorem presentedTransactionIsTheBlocksOwn : Obligations.PresentedTransactionIsTheBlocksOwn := by
  intro s t hs ht
  cases hp : s.seq with
  | none => simp [State.pendingTx, hp] at ht
  | some p =>
    cases hj : p.job.writes with
    | false =>
      obtain ⟨job, idx, ptr⟩ := p
      cases job with
      | construct b a h w =>
        refine .inl ⟨b, ?_, by simp [State.seqOp, hp, Job.op]⟩
        simpa [State.pendingTx, hp] using ht.symm
      | _ => cases hj
    | true =>
      obtain ⟨h, hh⟩ := hs.handle_of_writes hp hj
      rcases pendingTx_of_standsAt hh hp hj (hs.position hp hj).2 with ⟨b, _, -, ht'⟩ | ⟨_, -, hlt, -, ht'⟩
      · obtain rfl := Option.some.inj (ht'.symm.trans ht)
        exact .inr (.inl ⟨b, rfl, hh.symm, rfl, rfl, rfl, by
          simp [State.commandTx, Transaction.portData, Transaction.payload, packBytes], rfl⟩)
      · obtain rfl := Option.some.inj (ht'.symm.trans ht)
        have hn : (BitVec.ofNat 5 (min 16 (s.size - p.ptr.toNat))).toNat = min 16 (s.size - p.ptr.toNat) := by
          rw [BitVec.toNat_ofNat]
          omega
        refine .inr (.inr ⟨p.ptr, BitVec.ofNat 5 (min 16 (s.size - p.ptr.toNat)), _, rfl, hh.symm, rfl, rfl,
          by simp [State.fbPtr, hp], ?_, hn, by omega, rfl, fun i hi => ?_, by rw [hn]; rfl⟩)
        · simp [State.dataTx, Transaction.portLen, Transaction.payload]
        · exact packBytes_extract (by omega) (s.memRead_getElem? (by omega))

end Sys2Proof.Machine

/-! # Completion, and going on after a wait (10_state.md R31; 70_reset_and_hazards.md R238 to R241) -/

namespace Sys2Proof.Machine

/-! ## Every operation completes once it is answered -/

/-- The longest operation is a FLUSH of the largest framebuffer (R182, R240). -/
theorem State.job_length_le {s : State} (hs : s.Inv) {job : Job} (hp : s.permits job) (n ptr : Nat) :
    ((s.jobCommands job).drop n).length + (s.jobBlocks ptr job).length ≤ 4102 := by
  have hN := hs.size_le
  have hcmds := State.jobCommands_length_le hp
  rw [List.length_drop]
  rcases s.jobBlocks_cases ptr job with ⟨hflush, hblocks⟩ | hnone
  · have hsix : (s.jobCommands job).length = 6 := by rcases hflush with rfl | rfl <;> rfl
    rw [hblocks, State.dataBlocks_length]
    omega
  · rw [hnone, List.length_nil]
    omega

/-- Going on with an operation leads to a next state, and completes it if there are answers enough. -/
theorem resume_completes {s : State} (hs : s.Inv) :
    ∃ t, resume s = .next t ∧ (4102 ≤ s.answers.length → t.busy = false) := by
  cases hp : s.seq with
  | none => exact ⟨s, resume_idle hp, fun _ => by simp [State.busy, hp]⟩
  | some p =>
    cases hj : p.job.writes with
    | true =>
      obtain ⟨h, hh⟩ := hs.handle_of_writes hp hj
      rw [resume_writes hp hj]
      rcases sendAll_outcomes hh ((s.jobCommands p.job).drop p.idx.toNat) (s.jobBlocks p.ptr.toNat p.job)
          (State.jobDone p.job) (State.jobFailed p.job) with
        ⟨_, _, _, _, _, hr⟩ | ⟨_, _, _, _, _, _, _, _, _, _, _, hr⟩ | ⟨cs, bs, t, hd, _, hl, hr⟩
      · exact ⟨_, hr, fun _ => rfl⟩
      · exact ⟨_, hr, fun _ => rfl⟩
      · have hlt := hd.length_lt
        have hle := State.job_length_le hs (hs.position hp hj).1 p.idx.toNat p.ptr.toNat
        exact ⟨_, hr, fun henough => absurd henough (by omega)⟩
    | false =>
      obtain ⟨job, idx, ptr⟩ := p
      cases job with
      | construct b a h w =>
        rw [resume_construct hp]
        rcases openBus_cases b a h w s with ⟨ha, hx⟩ | ⟨_, _, _, _, hx⟩ | ⟨_, _, _, _, hx⟩
        · exact ⟨_, hx, fun henough => by simp [ha] at henough⟩
        · exact ⟨_, hx, fun _ => rfl⟩
        · exact ⟨_, hx, fun _ => rfl⟩
      | _ => cases hj

section
variable {s : State} (hs : s.Inv)
include hs

/-- Under the invariant a pixel write never faults (R122). -/
theorem State.drawPixel_ne_error (x y : Int) (on : Bool) (f : Fault) : s.drawPixel x y on ≠ .error f := by
  cases hxy : s.inBounds x y with
  | false => simp [State.drawPixel_outOfBounds hxy]
  | true => simp [State.drawPixel_inBounds hs hxy]

/-- Any request leads to a next state, and is complete if there are answers enough (R241). -/
theorem exec_request_completes (hb : s.busy = false) {i : Instr} (hi : isRequest i = true) :
    ∃ t, exec i s = .next t ∧ (4102 ≤ s.answers.length → t.busy = false) := by
  obtain ⟨p, hm⟩ := exists_meaning s i
  rw [exec_of_meaning hb hm]
  cases p with
  | refuse r =>
    cases hm with
    | refused hr => simp [hr] at hi
  | fault f =>
    cases hm with
    | drawPixelFault _ hd => exact absurd hd (State.drawPixel_ne_error hs _ _ _ f)
  | reject | release | answer => exact ⟨_, rfl, fun _ => rfl⟩
  | send m job => exact resume_completes (hm.accepted_inv hs hb)

end

/-- Settles O53: a request has a meaning that neither refuses nor, under the invariant, faults; and the longest operation
waits for at most 4102 answers. -/
theorem everyRequestRunsAndCompletesOnceAnswered : Obligations.EveryRequestRunsAndCompletesOnceAnswered := by
  intro s hs hr hp
  cases hb : s.busy with
  | true =>
    rw [step_busy hr hb]
    exact resume_completes hs
  | false =>
    cases hw : s.inbox with
    | nil => exact ⟨s, step_wait hr hb hp hw, fun _ => hb⟩
    | cons w rest =>
      rw [step_request hr hb hp hw]
      exact exec_request_completes (hs.withInputs rest s.preload) hb (isRequest_decodeRequest w)

/-- Settles O30: none of the seven starts an operation. -/
theorem operationsThatSendNothingAlwaysComplete : Obligations.OperationsThatSendNothingAlwaysComplete := by
  intro s v off x y x0 y0 dx dy on d p hs hb i hi
  have hrequest : isRequest i = true ∧ ∀ m job, ¬ Meaning s i (.send m job) := by
    simp only [List.mem_cons, List.not_mem_nil, or_false] at hi
    rcases hi with rfl | rfl | rfl | rfl | rfl | rfl | rfl
    all_goals
      refine ⟨rfl, fun m job hm => ?_⟩
      cases hm with
      | wire _ hs => cases hs
  obtain ⟨t, h, -⟩ := exec_request_completes hs hb hrequest.1
  obtain ⟨htrace, hanswers, hidle⟩ := exec_immediate hb hrequest.2 h
  exact ⟨t, h, hidle, htrace, hanswers⟩

/-! ## The transport's side of a state -/

/-- A state with another handle, another history and other answers to come. -/
def State.withTransport (s : State) (handle : Option Handle) (trace : List TraceEntry) (answers : List Answer) : State :=
  { s with handle := handle, trace := trace, answers := answers }

section
variable {s : State} {handle : Option Handle} {trace : List TraceEntry} {answers : List Answer}

/-- A pixel write neither reads nor changes the transport's side (R122). -/
theorem State.drawPixel_withTransport {x y : Int} {on : Bool} :
    (s.withTransport handle trace answers).drawPixel x y on =
      (s.drawPixel x y on).map fun t => t.withTransport handle trace answers := by
  have hin : (s.withTransport handle trace answers).inBounds x y = s.inBounds x y := rfl
  have hsize : (s.withTransport handle trace answers).size = s.size := rfl
  have hoffset : (s.withTransport handle trace answers).pixelOffset = s.pixelOffset := rfl
  unfold State.drawPixel State.memWrite
  rw [hin, hsize, hoffset]
  split
  · dsimp only
    split <;> rfl
  · rfl

/-- What an instruction comes to does not depend on the transport's side (R22, R143). -/
theorem Meaning.withTransport {i : Instr} {p : Plan} (hm : Meaning s i p) :
    Meaning (s.withTransport handle trace answers) i p := by
  cases hm with
  | refused hr h => exact .refused hr h
  | uninitialized hl hi hrel hcon => exact .uninitialized hl hi hrel hcon
  | reserved14 => exact .reserved14
  | reserved15 => exact .reserved15
  | constructRefused hd => exact .constructRefused hd
  | construct hl hd => exact .construct hl hd
  | release => exact .release
  | getPages hl => exact .getPages hl
  | scrollCfg hl => exact .scrollCfg hl
  | clear hl => exact .clear hl
  | drawPixel hl hd => exact .drawPixel hl (by rw [State.drawPixel_withTransport, hd]; rfl)
  | drawPixelFault hl hd => exact .drawPixelFault hl (by rw [State.drawPixel_withTransport, hd]; rfl)
  | clearBlock hl => exact .clearBlock hl
  | writeRawRefused hl ho => exact .writeRawRefused hl ho
  | writeRaw hl h0 hN => exact .writeRaw hl h0 hN
  | init hl => exact .init hl
  | flushRefused hl => exact .flushRefused hl
  | flush hf => exact .flush hf
  | clearFlushRefused hl => exact .clearFlushRefused hl
  | clearFlush hf => exact .clearFlush hf
  | setStartLine hl => exact .setStartLine hl
  | actScroll hl => exact .actScroll hl
  | deactScroll hl => exact .deactScroll hl
  | wire hl hi => exact .wire hl hi

end

/-! ## More answers -/

/-- A state with more answers to come. -/
def State.more (s : State) (bs : List Answer) : State := { s with answers := s.answers ++ bs }

/-- Going on from a result once more answers have come. -/
def goOn (bs : List Answer) : Result → Result
  | .next t => if t.busy then resume (t.more bs) else .next (t.more bs)
  | .fault f => .fault f
  | .refused r => .refused r

/-- An operation that completed does not look at the answers after its own. -/
theorem goOn_idle {t : State} (ht : t.busy = false) (bs : List Answer) : goOn bs (.next t) = .next (t.more bs) := by
  simp [goOn, ht]

theorem goOn_busy {t : State} (ht : t.busy = true) (bs : List Answer) : goOn bs (.next t) = resume (t.more bs) := by
  simp [goOn, ht]

/-- The write due depends on the handle and the address only. -/
theorem Due.more {s : State} {h : Handle} {cmds cs : List Byte} {blocks bs : List (List Byte)} {t : Transaction}
    (hd : Due s h cmds blocks cs bs t) (as : List Answer) : Due (s.more as) h cmds blocks cs bs t := by
  cases hd with
  | command split => exact .command (s := s.more as) split
  | block split => exact .block (s := s.more as) split

/-- An operation that stops at a wait goes on, from the position there, as if it had not stopped (R31, R61). -/
theorem sendAll_resumes {s : State} {h : Handle} {p : Position} {cs : List Byte} {bs : List (List Byte)} {t : Transaction}
    {onOk onError : State → State} {as rest : List Answer} (hN : s.size ≤ 65536) (hp : s.permits p.job) (hs : s.standsAt p)
    (hd : Sending s h p cs bs t) (hh : s.handle = some h) (ha : s.answers = as ++ rest) (hok : allOk as)
    (hl : as.length = cs.length + bs.length) :
    sendAll ((s.jobCommands p.job).drop p.idx.toNat) (s.jobBlocks p.ptr.toNat p.job) onOk onError s =
      sendAll ((s.jobCommands p.job).drop (p.after cs bs).idx.toNat) (s.jobBlocks (p.after cs bs).ptr.toNat p.job) onOk
        onError (s.sent h cs bs rest) := by
  obtain ⟨hcmds, hblocks, hone, -⟩ := hd.after hN hp hs
  rcases hone with rfl | hnil
  · rw [hcmds, hblocks]
    exact sendAll_sent_commands hh ha hok hl _ _
  · rw [hcmds, hblocks, hnil, List.append_nil]
    exact sendAll_sent_blocks hh ha hok hl _

/-- Going on with an operation, with all the answers at once or with the rest of them after a wait (R31, D26). -/
theorem resume_more {s : State} (hs : s.Inv) (hb : s.busy = true) (bs : List Answer) :
    resume (s.more bs) = goOn bs (resume s) := by
  obtain ⟨p, hp⟩ := Option.isSome_iff_exists.1 hb
  have hp' : (s.more bs).seq = some p := hp
  cases hj : p.job.writes with
  | true =>
    obtain ⟨h, hh⟩ := hs.handle_of_writes hp hj
    obtain ⟨hpermits, hstands⟩ := hs.position hp hj
    have hh' : (s.more bs).handle = some h := hh
    rw [resume_writes hp hj, resume_writes hp' hj]
    rcases sendAll_outcomes hh ((s.jobCommands p.job).drop p.idx.toNat) (s.jobBlocks p.ptr.toNat p.job)
        (State.jobDone p.job) (State.jobFailed p.job) with
      ⟨as, rest, ha, hok, hl, hr⟩ | ⟨cs, bs', t, as, e, rest, hd, ha, hok, hl, he, hr⟩ | ⟨cs, bs', t, hd, hok, hl, hr⟩
    · have ha' : (s.more bs).answers = as ++ (rest ++ bs) := by simp [State.more, ha]
      rw [hr, goOn_idle rfl]
      exact sendAll_done hh' ha' hok hl
    · have ha' : (s.more bs).answers = as ++ e :: (rest ++ bs) := by simp [State.more, ha]
      rw [hr, goOn_idle rfl]
      exact sendAll_failed (hd.more bs) hh' ha' hok hl he
    · have hbusy : (s.sent h cs bs' []).busy = true := by rw [State.busy_sent, hb]
      have hq : ((s.sent h cs bs' []).more bs).seq = some (p.after cs bs') := State.sent_seq_of_some hp h cs bs' []
      rw [hr, goOn_busy hbusy, resume_writes hq hj]
      exact sendAll_resumes (s := s.more bs) hs.size_le hpermits hstands (hd.more bs) hh' rfl hok hl
  | false =>
    obtain ⟨job, idx, ptr⟩ := p
    cases job with
    | construct b a h w =>
      rw [resume_construct hp, resume_construct hp']
      rcases openBus_cases b a h w s with ⟨ha, hx⟩ | ⟨e, rest, ha, he, hx⟩ | ⟨e, rest, ha, he, hx⟩
      · rw [hx, goOn_busy hb, resume_construct hp']
      · have ha' : (s.more bs).answers = e :: (rest ++ bs) := by simp [State.more, ha]
        rw [hx, goOn_idle rfl]
        exact openBus_failed ha' he
      · have ha' : (s.more bs).answers = e :: (rest ++ bs) := by simp [State.more, ha]
        rw [hx, goOn_idle rfl]
        exact openBus_opened ha' he
    | _ => cases hj

/-- An instruction, with all the answers at once or with the rest of them after a wait. -/
theorem exec_more {s : State} (hs : s.Inv) (hb : s.busy = false) (i : Instr) (bs : List Answer) :
    exec i (s.more bs) = goOn bs (exec i s) := by
  obtain ⟨p, hm⟩ := exists_meaning s i
  have hm' : Meaning (s.more bs) i p := hm.withTransport (handle := s.handle) (trace := s.trace)
  rw [exec_of_meaning hb hm, exec_of_meaning (s := s.more bs) hb hm']
  cases p with
  | refuse | fault | reject | release | answer => rfl
  | send m job => exact resume_more (hm.accepted_inv hs hb) rfl bs

/-- Settles O55: an operation that stopped at a wait goes on from its position. -/
theorem atomicAndStepwiseReadingsAgree : Obligations.AtomicAndStepwiseReadingsAgree := by
  rintro i s as bs hs hb rfl
  refine (exec_more hs hb i bs).trans ?_
  cases exec i s <;> rfl

/-! ## Renaming of handles (R22, D8) -/

section
variable (f : Handle → Handle)

/-- A renamed state differs on the transport's side only. -/
theorem State.mapHandle_eq_withTransport (s : State) :
    s.mapHandle f = s.withTransport (s.mapHandle f).handle (s.mapHandle f).trace (s.mapHandle f).answers := rfl

/-- An answer with its handle renamed. -/
def Answer.mapHandle (a : Answer) : Answer := ⟨a.error, f a.handle⟩

theorem allOk_mapHandle {as : List Answer} : allOk (as.map (Answer.mapHandle f)) ↔ allOk as := by
  simp [allOk, Answer.mapHandle]

/-- An entry of `TRACE` with its handles renamed. -/
def TraceEntry.mapHandle (e : TraceEntry) : TraceEntry := ⟨e.tx.mapHandle f, e.reply.mapHandle f⟩

theorem map_okCommands (h : Handle) (addr : BitVec 7) (cs : List Byte) :
    (okCommands h addr cs).map (TraceEntry.mapHandle f) = okCommands (f h) addr cs := by
  simp [okCommands, TraceEntry.mapHandle, Transaction.mapHandle, Reply.mapHandle]

theorem map_okBlocks (h : Handle) (addr : BitVec 7) (bs : List (List Byte)) :
    (okBlocks h addr bs).map (TraceEntry.mapHandle f) = okBlocks (f h) addr bs := by
  simp [okBlocks, TraceEntry.mapHandle, Transaction.mapHandle, Reply.mapHandle]

theorem Transaction.reply_mapHandle (t : Transaction) (a : Answer) :
    (t.mapHandle f).reply (a.mapHandle f) = (t.reply a).mapHandle f := by
  cases ha : a.error <;> cases t <;> simp [Transaction.reply, Transaction.mapHandle, Reply.mapHandle, Answer.mapHandle, ha]

section
variable (s : State) (h : Handle) (cs : List Byte) (bs : List (List Byte)) (rest : List Answer)

theorem State.mapHandle_trace : (s.mapHandle f).trace = s.trace.map (TraceEntry.mapHandle f) := rfl

theorem State.mapHandle_sent : (s.sent h cs bs rest).mapHandle f =
    (s.mapHandle f).sent (f h) cs bs (rest.map (Answer.mapHandle f)) := by
  have htrace : ((s.sent h cs bs rest).mapHandle f).trace =
      ((s.mapHandle f).sent (f h) cs bs (rest.map (Answer.mapHandle f))).trace := by
    rw [State.mapHandle_trace, State.sent_trace, State.sent_trace, List.map_append, List.map_append, map_okCommands,
      map_okBlocks, State.mapHandle_trace]
    rfl
  change { (s.mapHandle f).sent (f h) cs bs (rest.map (Answer.mapHandle f)) with
    trace := ((s.sent h cs bs rest).mapHandle f).trace } = _
  rw [htrace]

theorem State.mapHandle_logged (t : Transaction) (a : Answer) : (s.logged t a rest).mapHandle f =
    (s.mapHandle f).logged (t.mapHandle f) (a.mapHandle f) (rest.map (Answer.mapHandle f)) := by
  have htrace : ((s.logged t a rest).mapHandle f).trace =
      ((s.mapHandle f).logged (t.mapHandle f) (a.mapHandle f) (rest.map (Answer.mapHandle f))).trace := by
    rw [State.mapHandle_trace, State.logged_trace, State.logged_trace, Transaction.reply_mapHandle, List.map_append,
      State.mapHandle_trace]
    rfl
  change { (s.mapHandle f).logged (t.mapHandle f) (a.mapHandle f) (rest.map (Answer.mapHandle f)) with
    trace := ((s.logged t a rest).mapHandle f).trace } = _
  rw [htrace]

end

/-- The write due carries the renamed handle. -/
theorem Due.mapHandle {s : State} {h : Handle} {cmds cs : List Byte} {blocks bs : List (List Byte)} {t : Transaction}
    (hd : Due s h cmds blocks cs bs t) : Due (s.mapHandle f) (f h) cmds blocks cs bs (t.mapHandle f) := by
  cases hd with
  | command split => exact .command (s := s.mapHandle f) split
  | block split => exact .block (s := s.mapHandle f) split

/-- The sequencer passes the handle on and does nothing else with it. -/
theorem sendAll_mapHandle (s : State) (cmds : List Byte) (blocks : List (List Byte)) (job : Job) :
    sendAll cmds blocks (State.jobDone job) (State.jobFailed job) (s.mapHandle f) =
      mapResult (State.mapHandle f) (sendAll cmds blocks (State.jobDone job) (State.jobFailed job) s) := by
  cases hh : s.handle with
  | none =>
    have hh' : (s.mapHandle f).handle = none := by simp [State.mapHandle, hh]
    simp [sendAll, hh, hh', mapResult]
  | some h =>
    have hh' : (s.mapHandle f).handle = some (f h) := by simp [State.mapHandle, hh]
    have hanswers : (s.mapHandle f).answers = s.answers.map (Answer.mapHandle f) := rfl
    rcases sendAll_outcomes hh cmds blocks (State.jobDone job) (State.jobFailed job) with
      ⟨as, rest, ha, hok, hl, hr⟩ | ⟨cs, bs, t, as, e, rest, hd, ha, hok, hl, he, hr⟩ | ⟨cs, bs, t, hd, hok, hl, hr⟩
    · rw [ha, List.map_append] at hanswers
      rw [hr, sendAll_done hh' hanswers ((allOk_mapHandle f).2 hok) (by simp [hl])]
      exact congrArg (fun u => Host.Outcome.next (State.jobDone job u)) (State.mapHandle_sent f s h cmds blocks rest).symm
    · rw [ha, List.map_append, List.map_cons] at hanswers
      rw [hr, sendAll_failed (hd.mapHandle f) hh' hanswers ((allOk_mapHandle f).2 hok) (by simp [hl]) he]
      have hstate := State.mapHandle_logged f (s.sent h cs bs (e :: rest)) rest t e
      rw [State.mapHandle_sent] at hstate
      exact congrArg (fun u => Host.Outcome.next (State.jobFailed job u)) hstate.symm
    · rw [hr, sendAll_waits (hd.mapHandle f) hh' (hanswers ▸ (allOk_mapHandle f).2 hok) (by simp [hanswers, hl])]
      exact congrArg Host.Outcome.next (State.mapHandle_sent f s h cs bs []).symm

/-- Going on with an operation. -/
theorem resume_mapHandle (s : State) : resume (s.mapHandle f) = mapResult (State.mapHandle f) (resume s) := by
  cases hp : s.seq with
  | none =>
    rw [resume_idle hp, resume_idle (s := s.mapHandle f) hp]
    rfl
  | some p =>
    have hp' : (s.mapHandle f).seq = some p := hp
    cases hj : p.job.writes with
    | true =>
      rw [resume_writes hp hj, resume_writes hp' hj]
      exact sendAll_mapHandle f s _ _ p.job
    | false =>
      obtain ⟨job, idx, ptr⟩ := p
      cases job with
      | construct b a h w =>
        rw [resume_construct hp, resume_construct hp']
        rcases openBus_cases b a h w s with ⟨ha, hx⟩ | ⟨e, rest, ha, he, hx⟩ | ⟨e, rest, ha, he, hx⟩
        · have ha' : (s.mapHandle f).answers = [] := by simp [State.mapHandle, ha]
          rw [hx, openBus_waits ha']
          rfl
        all_goals
          have ha' : (s.mapHandle f).answers = e.mapHandle f :: rest.map (Answer.mapHandle f) := by
            simp [State.mapHandle, Answer.mapHandle, ha]
          have hstate := (State.mapHandle_logged f s rest (.openBus b) e).symm
        · rw [hx, openBus_failed ha' he]
          exact congrArg (fun u => Host.Outcome.next (u.respond .errResource 0#32)) hstate
        · rw [hx, openBus_opened ha' he]
          exact congrArg (fun u => Host.Outcome.next ((u.constructAs (f e.handle) a h w).respond .ok 0#32)) hstate
      | _ => cases hj

/-- An instruction on an idle block. -/
theorem exec_mapHandle {s : State} (hb : s.busy = false) (i : Instr) :
    exec i (s.mapHandle f) = mapResult (State.mapHandle f) (exec i s) := by
  obtain ⟨p, hm⟩ := exists_meaning s i
  have hm' : Meaning (s.mapHandle f) i p := State.mapHandle_eq_withTransport f s ▸ hm.withTransport
  rw [exec_of_meaning hb hm, exec_of_meaning (s := s.mapHandle f) hb hm']
  cases p with
  | refuse | fault | reject | release | answer => rfl
  | send m job => exact resume_mapHandle f ((s.withFb m).accepted job)

end

/-- Settles O54: no guard, no plan and no position depends on a handle; the sequencer and CONSTRUCT pass it on. -/
theorem handlesAreNeverInspected : Obligations.HandlesAreNeverInspected := by
  intro f s
  cases hr : s.resetLine with
  | true =>
    cases hb : s.busy with
    | true =>
      rw [step_reset_busy hr hb, step_reset_busy (s := s.mapHandle f) hr hb]
      rfl
    | false =>
      rw [step_reset hr hb, step_reset (s := s.mapHandle f) hr hb]
      rfl
  | false =>
    cases hb : s.busy with
    | true =>
      rw [step_busy hr hb, step_busy (s := s.mapHandle f) hr hb]
      exact resume_mapHandle f s
    | false =>
      cases hp : s.preload with
      | some c =>
        rw [step_preload hr hb hp, step_preload (s := s.mapHandle f) hr hb hp]
        unfold runCode
        split
        · exact exec_mapHandle f (s := s.withInputs s.inbox none) hb _
        · rfl
      | none =>
        cases hw : s.inbox with
        | nil =>
          rw [step_wait hr hb hp hw, step_wait (s := s.mapHandle f) hr hb hp hw]
          rfl
        | cons w rest =>
          rw [step_request hr hb hp hw, step_request (s := s.mapHandle f) hr hb hp hw]
          exact exec_mapHandle f (s := s.withInputs rest s.preload) hb (decodeRequest w)

end Sys2Proof.Machine

/-! # Single operations: refusals, sending operations and their failures, CONSTRUCT, reset -/

namespace Sys2Proof.Machine

/-! ## Reset and stepping (R36, R230) -/

/-- Settles O1: the reset state as written. -/
theorem resetLeavesTheInitialState : Obligations.ResetLeavesTheInitialState := by
  refine ⟨rfl, rfl, rfl, rfl, rfl, rfl, rfl, rfl, rfl, rfl, rfl, rfl, rfl, rfl, rfl, rfl, rfl, rfl, rfl, rfl⟩

/-- Settles O2: the reset state is not constructed, and no operation is in progress. -/
theorem resetMeetsTheInvariants : Obligations.ResetMeetsTheInvariants :=
  ⟨State.reset_inv [] {} [] [] false none, .of_idle rfl nofun⟩

/-- Settles O3: a step serves the line of an idle block and refuses that of a busy one. -/
theorem resetLineOnlyBetweenOperations : Obligations.ResetLineOnlyBetweenOperations :=
  fun _ hr => ⟨step_reset hr, step_reset_busy hr⟩

/-- Settles O4: one equation of `step` for each clause. -/
theorem stepRunsTheDecodedInstruction : Obligations.StepRunsTheDecodedInstruction := by
  intro s hr
  refine ⟨fun w rest i hb hp hw hd _ => ?_, fun c i hb hp hd _ => ?_, step_busy hr, step_wait hr⟩
  · obtain rfl : decodeRequest w = i := Except.ok.inj hd
    exact step_request hr hb hp hw
  · rw [step_preload hr hb hp, runCode, hd]
    rfl

/-! ## Operations that answer at once -/

/-- Settles O23: RELEASE answers `OK` and leaves the reset registers. -/
theorem releaseLeavesTheResetState : Obligations.ReleaseLeavesTheResetState :=
  fun _ hb => exec_of_meaning hb .release

/-- Settles O24: `PAGES` is zero-extended into the value. -/
theorem getPagesReturnsPages : Obligations.GetPagesReturnsPages := by
  refine fun s hb => ⟨fun hl => exec_uninitialized hb hl (.inl rfl) nofun nofun, fun hl => ?_⟩
  refine ⟨_, exec_of_meaning hb (.getPages hl), rfl, ?_⟩
  have hlt := s.pages.isLt
  rw [State.respond_rval, BitVec.toNat_setWidth]
  omega

/-- Settles O25: refused in `Uninitialized`, answered `OK` elsewhere, the operands unread. -/
theorem scrollCfgHasNoEffect : Obligations.ScrollCfgHasNoEffect := by
  intro s d v hb
  by_cases hl : s.lstate = .uninitialized
  · rw [if_pos hl]
    exact exec_uninitialized hb hl (.inl rfl) nofun nofun
  · rw [if_neg hl]
    exact exec_of_meaning hb (.scrollCfg hl)

/-- Settles O26: both codes decode to their row, which is refused in every lifecycle state. -/
theorem reservedCodesEndWithErrPrecond : Obligations.ReservedCodesEndWithErrPrecond := by
  refine ⟨fun w hw => ?_, fun w hw => ?_, fun s hb => ⟨exec_of_meaning hb .reserved14, exec_of_meaning hb .reserved15⟩⟩
  · simp [decode, decodeRequest, hw]
  · simp [decode, decodeRequest, hw]

/-- Settles O41: each name is refused as its own. -/
theorem neverSentNamesAreRefused : Obligations.NeverSentNamesAreRefused :=
  fun _ => ⟨rfl, rfl, rfl, rfl, rfl, rfl, rfl, rfl, rfl, rfl, rfl, rfl, rfl, rfl, rfl⟩

/-- Settles O42: the common state check. -/
theorem uninitializedRefusesEverythingElse : Obligations.UninitializedRefusesEverythingElse :=
  fun _ _ hb hl hi hrel hcon => exec_uninitialized hb hl hi hrel hcon

/-! ## CONSTRUCT (R150 to R157) -/

/-- Settles O21: the check passes, the bus opens, and the registers hold the dimensions exactly. -/
theorem constructAcquiresAndZeroFills : Obligations.ConstructAcquiresAndZeroFills := by
  intro s b addr height width a rest hb hl hd ha he
  have hdims := dimsOk_iff.2 hd
  obtain ⟨hwidth, hheight, hpages⟩ := toNat_ofInt_of_dimsOk hdims
  have hsize : ((BitVec.ofInt 9 width).toNat * (BitVec.ofInt 9 (height / 8)).toNat : Nat) = width * (height / 8) := by
    rw [Nat.cast_mul, hwidth, hpages]
  have hx := openBus_opened (b := b) (a := addr) (h := height) (w := width)
    (s := s.accepted (.construct b addr height width)) ha he
  refine ⟨_, (exec_of_meaning hb (.construct hl hdims)).trans hx, ?_, hwidth, hheight, hpages, hsize, fun i _ => rfl⟩
  rw [← Transaction.reply_openBus_opened he]
  rfl

/-- Settles O22: the state check, then the dimension check, then the answer to the OPEN decide. -/
theorem constructRefusedOrFailedChangesNothing : Obligations.ConstructRefusedOrFailedChangesNothing := by
  intro s b addr height width hb
  refine ⟨fun hd => ?_, fun hl hdims => ⟨fun a rest ha he => ?_, fun ha => ?_⟩⟩
  · have hrefused : ¬ (s.lstate = .uninitialized ∧ dimsOk height width s.cfg = true) := fun ⟨hl, hdims⟩ =>
      hd.elim (fun hn => hn hl) (fun hn => hn (dimsOk_iff.1 hdims))
    exact exec_of_meaning hb (.constructRefused hrefused)
  · refine (exec_of_meaning hb (.construct hl hdims)).trans ?_
    rw [← Transaction.reply_openBus_error he]
    exact openBus_failed (s := s.accepted (.construct b addr height width)) ha he
  · exact (exec_of_meaning hb (.construct hl hdims)).trans
      (openBus_waits (s := s.accepted (.construct b addr height width)) ha)

/-! ## INIT (R169) -/

section
variable {s : State} {h : Handle} {cmds before after : List Byte} {b : Byte} {as rest : List Answer} {e : Answer}

/-- What the sequencer has logged when the write due is answered `Error` (R144). -/
theorem sendAll_failed_logs {blocks bs : List (List Byte)} {cs : List Byte} {t : Transaction} {onOk onError : State → State}
    (hd : Due s h cmds blocks cs bs t) (hh : s.handle = some h) (ha : s.answers = as ++ e :: rest) (hok : allOk as)
    (hl : as.length = cs.length + bs.length) (he : e.error = true) :
    sendAll cmds blocks onOk onError s =
      .next (onError { s.sent h cs bs rest with
        trace := s.trace ++ okCommands h s.devAddr cs ++ okBlocks h s.devAddr bs ++ [⟨t, .error⟩] }) := by
  rw [sendAll_failed hd hh ha hok hl he, State.logged, hd.reply_error he, State.sent_trace,
    List.append_assoc s.trace (okCommands _ _ _)]
  rfl

/-- The failed write is a command byte. -/
theorem sendAll_command_failed {blocks : List (List Byte)} {onOk onError : State → State} (hh : s.handle = some h)
    (hcmds : cmds = before ++ b :: after) (ha : s.answers = as ++ e :: rest) (hok : allOk as)
    (hl : as.length = before.length) (he : e.error = true) :
    sendAll cmds blocks onOk onError s =
      .next (onError { s.sent h before [] rest with
        trace := s.trace ++ okCommands h s.devAddr before ++ [⟨.writeByte h s.devAddr 0x00#8 b, .error⟩] }) := by
  rw [sendAll_failed_logs (.command hcmds) hh ha hok hl he, okBlocks_nil, List.append_nil]
  rfl

end

/-- Settles O32: INIT stops at the failed write and falls back to `BusAcquired`. -/
theorem initFailureFallsBackToBusAcquired : Obligations.InitFailureFallsBackToBusAcquired := by
  intro s h before after b as rest e hb hl hh hrom ha hok hlen he
  rw [exec_init_constructed hb hl, sendAll_command_failed (s := s.accepted .init) hh hrom ha hok hlen he]
  rfl

/-! ## Wire commands (R92, R141, R144) -/

/-- A wire command that the block sends, on an idle constructed block, is the run of its bytes. -/
theorem exec_wire {s : State} {i : Instr} (hi : isSentCommand i = true) (hb : s.busy = false) (hl : s.lstate ≠ .uninitialized) :
    exec i s = sendAll (encode i).wireBytes [] State.commandDone State.transportFailed
      (s.accepted (.wire (encode i).wireBytes)) :=
  exec_of_meaning hb (.wire hl hi)

/-- Settles O39: every byte is answered `Ok`, so the operation completes. -/
theorem wireCommandsSendTheirBytes : Obligations.WireCommandsSendTheirBytes := by
  intro i s h as rest hi hb hl hh ha hok hlen
  rw [exec_wire hi hb hl, sendAll_commands_ok (s := s.accepted _) hh ha hok hlen]
  rfl

/-- Settles O40: the operation stops at the failed byte. -/
theorem wireCommandsStopAtTheFirstError : Obligations.WireCommandsStopAtTheFirstError := by
  intro i s h before after b as rest e hi hb hl hh hbytes ha hok hlen he
  rw [exec_wire hi hb hl, sendAll_command_failed (s := s.accepted _) hh hbytes ha hok hlen he]
  rfl

/-! ## SET_START_LINE (R185) -/

/-- Settles O37: a single-command operation of the start-line byte; inside the caller's duty the offset stands below bit 6. -/
theorem setStartLineSendsOneCommand : Obligations.SetStartLineSendsOneCommand := by
  refine fun s offset hb => ⟨fun hl => exec_uninitialized hb hl (.inl rfl) nofun nofun, fun h a rest hl hh ha => ?_, ?_⟩
  · exact singleCommand_answered hb hl hh ha 5#4 (startLineByte offset)
  · revert offset
    decide

/-! ## The data blocks (R182) -/

/-- Settles O33: the blocks from offset 0 on. -/
theorem dataBlocksAreTheFramebuffer : Obligations.DataBlocksAreTheFramebuffer := by
  intro s
  refine ⟨s.dataBlocks_length 0, s.dataBlocks_flatten 0, s.memRead_length 0 s.size, fun i hi => ?_, fun k hk => ⟨?_, ?_⟩⟩
  · exact (s.memRead_getElem? (i := 0) hi).trans (by rw [Nat.zero_add])
  · simpa using s.dataBlocks_getElem? hk
  · rw [State.dataBlocks_length] at hk
    omega

/-! ## FLUSH refused or failed (R180, R183) -/

/-- Settles O35: FLUSH is refused before a completed INIT, and stops at the failed write of either phase. -/
theorem flushRefusedOrFailedKeepsTheState : Obligations.FlushRefusedOrFailedKeepsTheState := by
  refine fun s hb => ⟨fun hl => ?_, fun h before after b as rest e hl hh hcmds ha hok hlen he => ?_,
    fun h before after b as rest e hl hh hblocks ha hok hlen he => ?_⟩
  · rcases hl with hl | hl
    · exact exec_uninitialized hb hl (.inl rfl) nofun nofun
    · exact exec_of_meaning hb (.flushRefused hl)
  · rw [exec_flush_permitted hb (decide_eq_true hl),
      sendAll_command_failed (s := s.accepted .flush) hh hcmds ha hok hlen he]
    rfl
  · rw [exec_flush_permitted hb (decide_eq_true hl),
      sendAll_failed_logs (s := s.accepted .flush) (cmds := s.windowCmds) (.block hblocks) hh ha hok hlen he]
    rfl

/-! ## CLEAR_FLUSH (R184) -/

section
variable {s : State}

/-- A cleared framebuffer reads as bytes 0x00. -/
theorem State.memRead_cleared (i n : Nat) : (s.withFb []).memRead i n = List.replicate n 0x00#8 := by
  rw [List.eq_replicate_iff, State.memRead_length]
  refine ⟨rfl, fun b hb => ?_⟩
  obtain ⟨j, -, rfl⟩ := List.mem_map.1 hb
  exact State.fbRead_of_fb_nil rfl _

/-- Block `k` of a cleared framebuffer. -/
theorem State.dataBlocks_cleared {k : Nat} (hk : k < (s.size + 15) / 16) :
    ((s.withFb []).dataBlocks 0)[k]? = some (List.replicate (min 16 (s.size - 16 * k)) 0x00#8) := by
  rw [State.dataBlocks_getElem? _ (by simpa using hk), State.memRead_cleared]
  simp

/-- The blocks of a cleared framebuffer up to block `k`: full ones, then that one. -/
theorem State.dataBlocks_cleared_split {k : Nat} (hk : k < (s.size + 15) / 16) :
    ∃ after, (s.withFb []).dataBlocks 0 = List.replicate k (List.replicate 16 0x00#8) ++
      List.replicate (min 16 (s.size - 16 * k)) 0x00#8 :: after := by
  have hfull : ((s.withFb []).dataBlocks 0).take k = List.replicate k (List.replicate 16 0x00#8) := by
    refine List.ext_getElem? fun j => ?_
    by_cases hj : j < k
    · rw [List.getElem?_take_of_lt hj, State.dataBlocks_cleared (by omega), List.getElem?_replicate_of_lt hj]
      congr 2
      omega
    · simp [hj]
  have hk' : k < ((s.withFb []).dataBlocks 0).length := by simpa using hk
  refine ⟨((s.withFb []).dataBlocks 0).drop (k + 1), ?_⟩
  rw [← hfull, ← Option.some.inj ((List.getElem?_eq_getElem hk').symm.trans (State.dataBlocks_cleared hk)),
    ← List.drop_eq_getElem_cons hk', List.take_append_drop]

/-- A CLEAR_FLUSH that is permitted clears, then runs the window commands and the blocks (R184). -/
theorem exec_clearFlush_permitted (hb : s.busy = false) (hf : s.flushable = true) :
    exec .clearFlush s = sendAll (s.withFb []).windowCmds ((s.withFb []).dataBlocks 0) State.flushDone
      State.transportFailed ((s.withFb []).accepted .clearFlush) :=
  exec_of_meaning hb (.clearFlush hf)

end

/-- Settles O36: CLEAR_FLUSH is a FLUSH of the cleared framebuffer, whose blocks hold bytes 0x00. -/
theorem clearFlushClearsThenFlushes : Obligations.ClearFlushClearsThenFlushes := by
  intro s hb
  refine ⟨fun hl => exec_uninitialized hb hl (.inl rfl) nofun nofun, fun hl => exec_of_meaning hb (.clearFlushRefused hl),
    fun h as rest hl hh ha hok hlen => ?_, fun h before after b as rest e hl hh hcmds ha hok hlen he => ?_,
    fun h k as rest e hl hh hk ha hok hlen he => ?_⟩
  · refine ⟨(s.withFb []).dataBlocks 0, ?_, State.dataBlocks_length _ 0, fun k hk => ?_, ?_⟩
    · rw [State.dataBlocks_flatten, State.memRead_cleared]
      rfl
    · have hk' : k < (s.size + 15) / 16 := by simpa using hk
      exact ⟨State.dataBlocks_cleared hk', by omega⟩
    · rw [exec_clearFlush_permitted hb (decide_eq_true hl), sendFlush_ok (s := s.withFb []) .clearFlush hh ha hok hlen,
        State.completed, ← List.append_assoc]
      rfl
  · have hcmds' : (s.withFb []).windowCmds = before ++ b :: after := hcmds
    rw [exec_clearFlush_permitted hb (decide_eq_true hl),
      sendAll_command_failed (s := (s.withFb []).accepted .clearFlush) hh hcmds' ha hok hlen he]
    rfl
  · obtain ⟨after, hsplit⟩ := State.dataBlocks_cleared_split hk
    rw [exec_clearFlush_permitted hb (decide_eq_true hl), sendAll_failed_logs (s := (s.withFb []).accepted .clearFlush)
      (cmds := (s.withFb []).windowCmds) (.block hsplit) hh ha hok (by simpa [State.windowCmds] using hlen) he]
    rfl

end Sys2Proof.Machine

/-! # The framebuffer pixel by pixel (20_memory.md R54; 40_bitmap_ops.md R122 to R126) -/

namespace Sys2Proof.Machine

/-! ## Pixels and bits -/

section
variable {s : State} (hs : s.Inv)
include hs

/-- Two in-bounds pixels that share a bit are one (R54). -/
theorem State.pixel_unique {x y x' y' : Nat} (hxy : s.inBounds x y = true) (hxy' : s.inBounds x' y' = true)
    (ho : s.pixelOffset x y = s.pixelOffset x' y') (hb : y % 8 = y' % 8) : x = x' ∧ y = y' := by
  obtain ⟨-, -, -, -, hx, hy⟩ := (addressingLaw s hs).1 x y hxy
  obtain ⟨-, -, -, -, hx', hy'⟩ := (addressingLaw s hs).1 x' y' hxy'
  rw [ho] at hx hy
  omega

end

/-- Settles O12: the addressing law has an inverse on both sides. -/
theorem pixelsAndBitsAreInBijection : Obligations.PixelsAndBitsAreInBijection := by
  refine fun s hs => ⟨fun x y x' y' => State.pixel_unique hs, fun i b hi hb => ?_⟩
  exact ⟨_, _, (addressingLaw s hs).2 i b hi hb⟩

/-- A framebuffer content in canonical form inside `0 .. N-1` (R26). -/
def State.Canonical (s : State) (m : Memory) : Prop := Memory.wf m = true ∧ Memory.below s.size m = true

/-- Two framebuffers with the same in-bounds pixels are the same. -/
theorem State.fb_ext {s : State} (hs : s.Inv) {m m' : Memory} (hm : s.Canonical m) (hm' : s.Canonical m')
    (h : ∀ x y : Nat, s.inBounds x y = true → (s.withFb m).pixel x y = (s.withFb m').pixel x y) : m = m' := by
  refine Memory.ext hm.1 hm'.1 fun a => ?_
  by_cases ha : a < s.size
  · apply BitVec.eq_of_getLsbD_eq
    intro b hb
    have hpixel := h _ _ (State.inBounds_inverse hs ha hb)
    have hmod : (8 * (a % s.pages.toNat) + b) % 8 = b := by omega
    simp only [State.pixel, hmod] at hpixel
    have hoffset : ∀ m, (s.withFb m).pixelOffset (a / s.pages.toNat) (8 * (a % s.pages.toNat) + b) = a := fun _ =>
      State.pixelOffset_inverse hb
    rw [hoffset, hoffset] at hpixel
    exact hpixel
  · rw [Memory.read_of_below hm.2 (Nat.le_of_not_lt ha), Memory.read_of_below hm'.2 (Nat.le_of_not_lt ha)]

/-! ## DRAW_PIXEL (R122, R123) -/

/-- The mask of one bit has that bit and no other. -/
theorem oneBit_getLsbD (n : Nat) {b : Nat} (hb : b < 8) : (1#8 <<< n).getLsbD b = decide (b = n) := by
  have htwoPow : 1#8 <<< n = BitVec.twoPow 8 n := rfl
  rw [htwoPow, BitVec.getLsbD_twoPow]
  by_cases h : b = n
  · simp [← h, hb]
  · simp [h, Ne.symm h]

/-- Bit `b` of the byte DRAW_PIXEL writes: the pixel's own bit is set or cleared, the others are kept. -/
theorem setPixelBit_getLsbD (old : Byte) (y : Nat) (on : Bool) {b : Nat} (hb : b < 8) :
    (setPixelBit old y on).getLsbD b = if b = y % 8 then on else old.getLsbD b := by
  have hmask := oneBit_getLsbD (y % 8) hb
  rw [setPixelBit_eq]
  cases on with
  | true =>
    rw [if_pos rfl, BitVec.getLsbD_or, hmask]
    by_cases h : b = y % 8 <;> simp [h]
  | false =>
    rw [if_neg Bool.false_ne_true, BitVec.getLsbD_and, BitVec.getLsbD_not, hmask]
    by_cases h : b = y % 8 <;> simp [h, hb]

/-- The framebuffer after the pixel write at `(x, y)`. -/
def State.drawn (s : State) (x y : Nat) (on : Bool) : Memory :=
  Memory.write s.fb (s.pixelOffset x y) (setPixelBit (s.fbRead (s.pixelOffset x y)) y on)

/-- The block after DRAW_PIXEL at an in-bounds pixel. -/
def State.afterDraw (s : State) (x y : Nat) (on : Bool) : State := (s.withFb (s.drawn x y on)).respond .ok 0#32

section
variable {s : State} (hs : s.Inv) {x y : Nat} (hxy : s.inBounds x y = true) (on : Bool)
include hs hxy

theorem State.canonical_drawn : s.Canonical (s.drawn x y on) :=
  ⟨Memory.wf_write _ _ hs.framebuffer.1,
    Memory.below_write (State.pixelOffset_toNat_lt_size hs hxy) hs.framebuffer.2⟩

/-- A block with a pixel in bounds is constructed. -/
theorem State.constructed_of_inBounds : s.lstate ≠ .uninitialized := by
  intro hl
  obtain ⟨hwidth, -, -⟩ := hs.lifecycle.1 hl
  obtain ⟨hx, -⟩ := State.inBounds_natCast.1 hxy
  simp [hwidth] at hx

/-- The pixel drawn reads as drawn, every other one as before (R123). -/
theorem State.pixel_drawn {x' y' : Nat} (hxy' : s.inBounds x' y' = true) :
    (s.withFb (s.drawn x y on)).pixel x' y' = if (x', y') = (x, y) then on else s.pixel x' y' := by
  change ((s.withFb (s.drawn x y on)).fbRead (s.pixelOffset x' y')).getLsbD (y' % 8) = _
  rw [State.drawn, State.fbRead_withFb_write hs]
  by_cases ho : s.pixelOffset x y = s.pixelOffset x' y'
  · rw [if_pos ho, setPixelBit_getLsbD _ _ _ (Nat.mod_lt _ (by decide))]
    by_cases hb : y' % 8 = y % 8
    · obtain ⟨rfl, rfl⟩ := State.pixel_unique hs hxy hxy' ho hb.symm
      simp
    · have hne : (x', y') ≠ (x, y) := fun h => hb (by rw [(Prod.mk.inj h).2])
      rw [if_neg hb, if_neg hne, ho]
      rfl
  · have hne : (x', y') ≠ (x, y) := fun h => ho (by rw [(Prod.mk.inj h).1, (Prod.mk.inj h).2])
    rw [if_neg ho, if_neg hne]
    rfl

end

section
variable {s : State} (hs : s.Inv) (hb : s.busy = false) {x y : Nat} (hxy : s.inBounds x y = true) (on : Bool)
include hs hb hxy

theorem exec_drawPixel_inBounds : exec (.drawPixel x y on) s = .next (s.afterDraw x y on) :=
  exec_drawPixel_ok hb (State.constructed_of_inBounds hs hxy) (State.drawPixel_inBounds hs hxy on)

theorem State.afterDraw_inv : (s.afterDraw x y on).Inv := (hs.withFb hb (State.canonical_drawn hs hxy on)).respond nofun

/-- The pixels after two draws: the second one's, else the first one's, else as before. -/
theorem State.pixel_drawn_afterDraw {x' y' a b : Nat} (hxy' : s.inBounds x' y' = true) (on' : Bool)
    (hab : s.inBounds a b = true) :
    (s.withFb ((s.afterDraw x y on).drawn x' y' on')).pixel a b =
      if (a, b) = (x', y') then on' else if (a, b) = (x, y) then on else s.pixel a b := by
  rw [← State.pixel_drawn hs hxy on hab]
  exact State.pixel_drawn (State.afterDraw_inv hs hb hxy on) hxy' on' hab

/-- Drawing a pixel again changes nothing (R123). -/
theorem State.afterDraw_afterDraw_same : (s.afterDraw x y on).afterDraw x y on = s.afterDraw x y on := by
  have hinv := State.afterDraw_inv hs hb hxy on
  refine congrArg (fun m => (s.withFb m).respond .ok 0#32) (State.fb_ext hs (State.canonical_drawn hinv hxy on)
    (State.canonical_drawn hs hxy on) fun a b hab => ?_)
  rw [State.pixel_drawn_afterDraw hs hb hxy on hxy on hab, State.pixel_drawn hs hxy on hab]
  split <;> rfl

/-- Drawing at two different pixels commutes (R123). -/
theorem State.afterDraw_comm {x' y' : Nat} (hxy' : s.inBounds x' y' = true) (hne : (x', y') ≠ (x, y)) (on' : Bool) :
    (s.afterDraw x' y' on').afterDraw x y on = (s.afterDraw x y on).afterDraw x' y' on' := by
  have hinv := State.afterDraw_inv hs hb hxy on
  have hinv' := State.afterDraw_inv hs hb hxy' on'
  refine congrArg (fun m => (s.withFb m).respond .ok 0#32) (State.fb_ext hs (State.canonical_drawn hinv' hxy on)
    (State.canonical_drawn hinv hxy' on') fun a b hab => ?_)
  rw [State.pixel_drawn_afterDraw hs hb hxy' on' hxy on hab, State.pixel_drawn_afterDraw hs hb hxy on hxy' on' hab]
  by_cases h : (a, b) = (x, y)
  · rw [if_pos h, if_neg (h.trans_ne hne.symm), if_pos h]
  · rw [if_neg h, if_neg h]

end

/-- Settles O15: each clause compares in-bounds pixels, and these determine a framebuffer in canonical form. -/
theorem drawPixelSetThenReadAndNoAliasing : Obligations.DrawPixelSetThenReadAndNoAliasing := by
  intro s x y on hs hb hxy
  have hinv := State.afterDraw_inv hs hb hxy on
  refine ⟨_, exec_drawPixel_inBounds hs hb hxy on, ?_, fun x' y' hxy' hne => ?_, ?_, fun x' y' on' hxy' hne => ?_⟩
  · exact (State.pixel_drawn hs hxy on hxy).trans (if_pos rfl)
  · exact (State.pixel_drawn hs hxy on hxy').trans (if_neg hne)
  · rw [exec_drawPixel_inBounds hinv (State.busy_respond _ _ _) hxy, State.afterDraw_afterDraw_same hs hb hxy]
  · refine ⟨_, _, exec_drawPixel_inBounds hs hb hxy' on',
      exec_drawPixel_inBounds hinv (State.busy_respond _ _ _) hxy' on', ?_⟩
    rw [← State.afterDraw_comm hs hb hxy on hxy' hne]
    exact exec_drawPixel_inBounds (State.afterDraw_inv hs hb hxy' on') (State.busy_respond _ _ _) hxy on

/-! ## CLEAR_BLOCK (R125) -/

/-- Adding the one-bit masks of the positions of a list that `q` does not skip: a bit is set that was, or is listed
and not skipped. -/
theorem foldl_oneBit_getLsbD (q : Nat → Prop) [DecidablePred q] {b : Nat} (hb : b < 8) :
    ∀ (l : List Nat) (acc : Byte), (l.foldl (fun acc b => if q b then acc else acc ||| (1#8 <<< b)) acc).getLsbD b =
      (acc.getLsbD b || decide (b ∈ l ∧ ¬ q b))
  | [], acc => by simp
  | n :: l, acc => by
    rw [List.foldl_cons, foldl_oneBit_getLsbD q hb l]
    by_cases hn : q n
    · rw [if_pos hn]
      by_cases h : b = n
      · simp [h, hn]
      · simp [h]
    · rw [if_neg hn, BitVec.getLsbD_or, oneBit_getLsbD n hb]
      by_cases h : b = n
      · simp [h, hn]
      · simp [h]

/-- `keep(p)` keeps the rows outside `[ya, yb)` (R125). -/
theorem keepRows_getLsbD (ya yb : Int) (page : Nat) {b : Nat} (hb : b < 8) :
    (keepRows ya yb page).getLsbD b =
      decide (¬ (ya ≤ (8 * page + b : Nat) ∧ ((8 * page + b : Nat) : Int) < yb)) := by
  rw [keepRows, foldl_oneBit_getLsbD _ hb]
  simp [hb]

section
variable {s : State} (hs : s.Inv) (x0 y0 dx dy : Int)
include hs

/-- The mask of CLEAR_BLOCK keeps an in-bounds pixel exactly outside the rectangle. -/
theorem State.keepMask_getLsbD {x y : Nat} (hxy : s.inBounds x y = true) :
    (s.keepMask x0 y0 dx dy (s.pixelOffset x y)).getLsbD (y % 8) =
      decide (¬ (x0 ≤ x ∧ (x : Int) < x0 + dx ∧ y0 ≤ y ∧ (y : Int) < y0 + dy)) := by
  obtain ⟨hx, hy⟩ := State.inBounds_natCast.1 hxy
  have hp := State.page_lt hs hy
  have hrow : 8 * (y / 8) + y % 8 = y := Nat.div_add_mod y 8
  have hb : y % 8 < 8 := Nat.mod_lt _ (by decide)
  rw [State.keepMask, State.pixelOffset_div hp, State.pixelOffset_mod hp]
  split
  next hcol =>
    rw [keepRows_getLsbD _ _ _ hb, hrow]
    congr 1
    apply propext
    omega
  next hcol =>
    have hout : ¬ (x0 ≤ x ∧ (x : Int) < x0 + dx ∧ y0 ≤ y ∧ (y : Int) < y0 + dy) := by omega
    rw [decide_eq_true hout]
    exact (BitVec.getLsbD_allOnes (v := 8)).trans (decide_eq_true hb)

/-- CLEAR_BLOCK turns off exactly the in-bounds pixels of the rectangle (R125). -/
theorem State.pixel_clearBlock {x y : Nat} (hxy : s.inBounds x y = true) :
    (s.withFb (Memory.andMask (s.keepMask x0 y0 dx dy) s.fb)).pixel x y =
      if x0 ≤ x ∧ (x : Int) < x0 + dx ∧ y0 ≤ y ∧ (y : Int) < y0 + dy then false else s.pixel x y := by
  change (Memory.read (Memory.andMask _ s.fb) (s.pixelOffset x y)).getLsbD (y % 8) = _
  rw [Memory.read_andMask _ hs.framebuffer.1, BitVec.getLsbD_and, State.keepMask_getLsbD hs x0 y0 dx dy hxy]
  split
  next hin => simp [hin]
  next hout =>
    rw [decide_eq_true hout, Bool.and_true]
    rfl

theorem State.canonical_clearBlock : s.Canonical (Memory.andMask (s.keepMask x0 y0 dx dy) s.fb) :=
  ⟨Memory.wf_andMask _ hs.framebuffer.1, Memory.below_andMask _ hs.framebuffer.2⟩

/-- CLEAR_BLOCK keeps the bytes outside the columns of the rectangle (R125). -/
theorem State.fbRead_clearBlock {a : Nat}
    (ha : ¬ (x0 ≤ ((a / s.pages.toNat : Nat) : Int) ∧ ((a / s.pages.toNat : Nat) : Int) < x0 + dx)) :
    (s.withFb (Memory.andMask (s.keepMask x0 y0 dx dy) s.fb)).fbRead a = s.fbRead a := by
  have hkeep : s.keepMask x0 y0 dx dy a = 0xFF#8 := if_neg (by omega)
  change Memory.read (Memory.andMask _ s.fb) a = _
  rw [Memory.read_andMask _ hs.framebuffer.1, hkeep]
  exact BitVec.and_allOnes

end

/-- Settles O16: the mask of a pixel's byte has the pixel's bit exactly outside the rectangle. -/
theorem clearBlockClearsExactlyTheRectangle : Obligations.ClearBlockClearsExactlyTheRectangle := by
  refine fun s x0 y0 dx dy hb => ⟨fun hl => exec_uninitialized hb hl (.inl rfl) nofun nofun, fun hs hl => ?_⟩
  refine ⟨_, exec_clearBlock_constructed hb hl x0 y0 dx dy, rfl, fun x y hxy => ?_, fun a ha => ?_⟩
  · exact State.pixel_clearBlock hs x0 y0 dx dy hxy
  · exact State.fbRead_clearBlock hs x0 y0 dx dy ha

/-! ## The loop of CLEAR_BLOCK (R124) -/

/-- `t` is `s` with the in-bounds pixels that meet `p` turned off. -/
structure Erased (s t : State) (p : Nat → Nat → Prop) : Prop where
  frame : t = s.withFb t.fb
  canonical : s.Canonical t.fb
  pixel : ∀ x y : Nat, s.inBounds x y = true → (t.pixel x y = true ↔ s.pixel x y = true ∧ ¬ p x y)

/-- Nothing is turned off in the block itself. -/
theorem Erased.refl {s : State} (hs : s.Inv) {p : Nat → Nat → Prop}
    (hp : ∀ x y : Nat, s.inBounds x y = true → ¬ p x y) : Erased s s p where
  frame := rfl
  canonical := hs.framebuffer
  pixel x y hxy := (and_iff_left (hp x y hxy)).symm

section
variable {s t u : State} {p q r : Nat → Nat → Prop} (ht : Erased s t p)
include ht

theorem Erased.inv (hs : s.Inv) (hb : s.busy = false) : t.Inv := by
  rw [ht.frame]
  exact hs.withFb hb ht.canonical

theorem Erased.busy (hb : s.busy = false) : t.busy = false := by
  rw [ht.frame]
  exact hb

/-- One erasure after another is the erasure of both. -/
theorem Erased.trans (hu : Erased t u q) (hr : ∀ x y, r x y ↔ p x y ∨ q x y) : Erased s u r := by
  obtain ⟨hframe, hcanonical, hpixel⟩ := ht
  generalize t.fb = m at hframe hcanonical
  subst hframe
  refine ⟨hu.frame, hu.canonical, fun x y hxy => ?_⟩
  rw [hu.pixel x y hxy, hpixel x y hxy, hr]
  tauto

end

section
variable {s : State} (hs : s.Inv)
include hs

/-- One cell of the loop turns off its pixel, or nothing where the pixel is out of bounds. -/
theorem exists_drawPixel_erased (x y : Int) :
    ∃ t, s.drawPixel x y false = .ok t ∧ Erased s t fun x' y' => (x' : Int) = x ∧ (y' : Int) = y := by
  cases hxy : s.inBounds x y with
  | false =>
    refine ⟨s, State.drawPixel_outOfBounds hxy false, Erased.refl hs ?_⟩
    rintro x' y' hxy' ⟨rfl, rfl⟩
    rw [hxy] at hxy'
    cases hxy'
  | true =>
    obtain ⟨hx, -, hy, -⟩ := of_decide_eq_true hxy
    lift x to Nat using hx
    lift y to Nat using hy
    refine ⟨s.withFb (s.drawn x y false), State.drawPixel_inBounds hs hxy false, rfl,
      State.canonical_drawn hs hxy false, ?_⟩
    intro x' y' hxy'
    rw [State.pixel_drawn hs hxy false hxy']
    by_cases h : x' = x ∧ y' = y
    · simp [h]
    · simp [Prod.mk.injEq, h]

variable (hb : s.busy = false)
include hb

/-- The inner loop turns off the pixels of one column. -/
theorem exists_clearColumnByPixels_erased (x y0 : Int) : ∀ n : Nat, ∃ t, s.clearColumnByPixels x y0 n = .ok t ∧
    Erased s t fun x' y' => (x' : Int) = x ∧ y0 ≤ y' ∧ (y' : Int) < y0 + n
  | 0 => ⟨s, rfl, Erased.refl hs fun _ _ _ => by omega⟩
  | n + 1 => by
    obtain ⟨t, ht, hst⟩ := exists_clearColumnByPixels_erased x y0 n
    obtain ⟨u, hu, htu⟩ := exists_drawPixel_erased (hst.inv hs hb) x (y0 + n)
    refine ⟨u, ?_, hst.trans htu fun _ _ => by omega⟩
    simp only [State.clearColumnByPixels, ht]
    exact hu

/-- The loop turns off the pixels of the rectangle. -/
theorem exists_clearBlockByPixels_erased (x0 y0 : Int) (n : Nat) : ∀ m : Nat,
    ∃ t, s.clearBlockByPixels x0 y0 n m = .ok t ∧
      Erased s t fun x y => (x0 ≤ x ∧ (x : Int) < x0 + m) ∧ y0 ≤ y ∧ (y : Int) < y0 + n
  | 0 => ⟨s, rfl, Erased.refl hs fun _ _ _ => by omega⟩
  | m + 1 => by
    obtain ⟨t, ht, hst⟩ := exists_clearBlockByPixels_erased x0 y0 n m
    obtain ⟨u, hu, htu⟩ := exists_clearColumnByPixels_erased (hst.inv hs hb) (hst.busy hb) (x0 + m) y0 n
    refine ⟨u, ?_, hst.trans htu fun _ _ => by omega⟩
    simp only [State.clearBlockByPixels, ht]
    exact hu

end

/-- Settles O17: the loop and the closed form turn off the same in-bounds pixels. -/
theorem clearBlockIsTheLoopOfDrawPixel : Obligations.ClearBlockIsTheLoopOfDrawPixel := by
  intro s x0 y0 dx dy hs hb hl
  obtain ⟨t, hloop, ht⟩ := exists_clearBlockByPixels_erased hs hb x0 y0 dy.toNat dx.toNat
  refine ⟨t, hloop, ?_⟩
  have hfb : Memory.andMask (s.keepMask x0 y0 dx dy) s.fb = t.fb := by
    refine State.fb_ext hs (State.canonical_clearBlock hs x0 y0 dx dy) ht.canonical fun x y hxy => ?_
    rw [State.pixel_clearBlock hs x0 y0 dx dy hxy, ← ht.frame, Bool.eq_iff_iff, ht.pixel x y hxy]
    split
    next hin => exact ⟨nofun, fun h => absurd (by omega) h.2⟩
    next hout => exact ⟨fun h => ⟨h, by omega⟩, fun h => h.1⟩
  rw [exec_clearBlock_constructed hb hl, hfb, ← ht.frame]
  rfl

/-! ## WRITE_RAW (R126) -/

/-- Settles O18: the byte at the offset is the new one, and its bits are the eight pixels of its column and page. -/
theorem writeRawReplacesOneByte : Obligations.WriteRawReplacesOneByte := by
  refine fun s v o hb => ⟨fun hrefused => ?_, fun hs hl h0 hN => ?_⟩
  · by_cases hl : s.lstate = .uninitialized
    · exact exec_uninitialized hb hl (.inl rfl) nofun nofun
    · exact exec_of_meaning hb (.writeRawRefused hl (hrefused.resolve_left hl))
  · have hread := State.fbRead_withFb_write hs o.toNat v
    refine ⟨_, exec_of_meaning hb (.writeRaw hl h0 hN), rfl, ?_, fun a ha => ?_, fun b hbit => ?_⟩
    · exact (hread _).trans (if_pos rfl)
    · exact (hread a).trans (if_neg (Ne.symm ha))
    · have hoffset : s.pixelOffset (o.toNat / s.pages.toNat) (8 * (o.toNat % s.pages.toNat) + b) = o.toNat :=
        State.pixelOffset_inverse hbit
      have hmod : (8 * (o.toNat % s.pages.toNat) + b) % 8 = b := by omega
      change ((s.withFb (Memory.write s.fb o.toNat v)).fbRead (s.pixelOffset _ _)).getLsbD _ = _
      rw [hoffset, hread, if_pos rfl, hmod]

end Sys2Proof.Machine
